-- ==== Sys2Proof/Word.lean ====
section
/-! DEFINITION. The two value widths of the machine (00_scope.md R5): 8-bit registers and memory cells, 16-bit
addresses and program counter. Arithmetic on them wraps (10_state.md R25). -/

namespace Sys2Proof

/-- An 8-bit value: a register, a memory cell, an instruction byte. -/
abbrev Byte := BitVec 8

/-- A 16-bit value: an address or the program counter. -/
abbrev Word := BitVec 16

end Sys2Proof
end

