-- ==== Sys2Proof/Machine/Bits.lean ====
section
/-! DEFINITION. The byte-order, slicing and extension helpers of 00_scope.md R7 and 30_encoding.md R72. -/

namespace Sys2Proof.Machine

/-- `{h, l}`: the 16-bit value with `h` in bits 15 to 8 and `l` in bits 7 to 0 (00 R7, 20 R43). -/
def wordOf (h l : Byte) : Word := h ++ l

/-- `hi8(w) = w[15:8]` (00 R7). -/
def hi8 (w : Word) : Byte := w.extractLsb' 8 8

/-- `lo8(w) = w[7:0]` (00 R7). -/
def lo8 (w : Word) : Byte := w.extractLsb' 0 8

/-- `{0x00, b}`: a zero-page address (30 R72, 40 R107). -/
def zeroPage (b : Byte) : Word := wordOf 0x00 b

/-- `0x0100 + sp`: the stack address a stack-pointer value designates, always in page 1 (10 R14, 44 R180). -/
def stackAddr (sp : Byte) : Word := wordOf 0x01 sp

/-- `zext_16(b) = b` (00 R7). -/
def zext16 (b : Byte) : Word := b.setWidth 16

/-- `sext_16(b)`: the two's-complement reading of a byte as a 16-bit value (00 R7, 30 R72, 92 D29). -/
def sext16 (b : Byte) : Word := b.signExtend 16

end Sys2Proof.Machine
end

