-- ==== Sys2Proof/Config.lean ====
section
/-! DEFINITION. The named parameters of 00_scope.md R6 that have one value in this model. The parameters that a host
chooses per run (START_PC, IMAGE, IMAGE_BASE, BUS, MEM_INIT, PRESET) are arguments of Machine/Launch.lean; the values
here are their defaults. The one free value is what a host's devices answer (93_implementation_defined.md
U9). -/

namespace Sys2Proof.Machine

/-- The two bus operations (20_memory.md R41). -/
inductive AccessKind where
  | read | write
  deriving DecidableEq, Repr

/-- One access the bus has serviced: what it saw (20 R41, R46) and the byte that moved. -/
structure BusAccess where
  kind  : AccessKind
  addr  : Word
  value : Byte
  deriving DecidableEq, Repr

/-- What the core asks of the bus: the arguments of `read_byte` and `write_byte` (20 R41). -/
inductive BusRequest where
  | read (a : Word)
  | write (a : Word) (v : Byte)
  deriving DecidableEq, Repr

end Sys2Proof.Machine

namespace Sys2Proof.Config

/-- MEM_INIT's default: what every cell outside the image holds at launch (00 R6, 20 R50), and so what an unlisted cell
of `Memory` reads as. DESIGN CHOICE of the spec (92 D13), unsafe for a host with another fill: log entry 2. -/
def memInit : Byte := 0x00

/-- PHP_FORCE: the mask OR-ed into the byte PHP pushes (00 R6, 44 R184). DESIGN CHOICE of the spec from general
knowledge (92 D4, 93 G7), unsafe if the host's convention is another: log entry 6. -/
def phpForce : Byte := 0x30

/-- START_PC's default (00 R6, 10 R31). -/
def startPc : Word := 0x0000

/-- IMAGE_BASE's default (00 R6, 20 R49). -/
def imageBase : Word := 0x0000

/-- What the host's device of this number answers a request: nothing when it refuses, else the byte a read gives (for a
write the byte says nothing). A FREE VALUE, any function of the accesses the bus has serviced before (newest first) and
of the request, since a device is the host's, may change state with each access, and may refuse by its state and by the
byte written (20 R41, R47, 93 U2, U9). DESIGN CHOICE, safe: log entry 1. -/
opaque deviceReply : Nat → List Machine.BusAccess → Machine.BusRequest → Option Byte

/-- The number of cells of the address space (20 R40). -/
def cells : Nat := 65536

end Sys2Proof.Config
end

