-- ==== Sys2Proof/Machine/State.lean ====
section
/-! DEFINITION. The state: the CPU registers (10_state.md R10), the run state with its fault record (10 R28, R29), the
host's memory and bus (20_memory.md R40 to R42), and the reasons a step can stop. -/

namespace Sys2Proof.Machine

/-- Host memory as (address, byte) pairs, addresses strictly rising, no entry equal to what an unlisted address reads as
(`Config.memInit`); see `Memory.wf`. -/
abbrev Memory := List Host.Cell

/-- How the host's bus deals with a request (20 R41, R42): it refuses it, plain memory serves it, it answers with this
byte (a write is accepted and goes nowhere), or the device of this number decides. -/
inductive Reply where
  | refuse
  | memory
  | answer (v : Byte)
  | device (id : Nat)
  deriving DecidableEq, Repr

/-- One case of a host's bus: which requests it is about, how they are dealt with, and the phase the bus is in after one
is serviced. A case is about requests of its kind, in its range of addresses, in its phase and, for a write, of its byte;
`none` stands for any phase, any byte, and for no change of phase. -/
structure BusCase where
  kind  : AccessKind
  base  : Nat
  size  : Nat
  reply : Reply
  phase : Option Nat := none
  byte  : Option Byte := none
  next  : Option Nat := none
  deriving DecidableEq, Repr

/-- The host's bus (parameter BUS: 00 R6, 20 R41, R42, R50): the first case that is about a request decides, and a
request that no case is about is refused. Its state (`Mem` in R41) is the memory beside it and what it has seen, from
which its phase follows; so replies and refusals may depend on its state and on the byte written: log entry 1. -/
structure Bus where
  cases : List BusCase
  deriving DecidableEq, Repr

/-- The platform `FlatRAM64K`: nothing is refused (20 R50). -/
def Bus.flatRam64K : Bus := ⟨[⟨.read, 0, Config.cells, .memory, none, none, none⟩,
  ⟨.write, 0, Config.cells, .memory, none, none, none⟩]⟩

/-- The platform `ImageOnly`: reads inside the image alone, no writes (20 R50). -/
def Bus.imageOnly (base size : Nat) : Bus := ⟨[⟨.read, base, size, .memory, none, none, none⟩]⟩

/-- What a fault reports (10 R29): class 1 with the byte and the address it was fetched from (60 R241), class 2 with the
refused address, the kind of access and the address of the opcode (60 R242). -/
inductive FaultRecord where
  | decodeFailure (byte : Byte) (opAt : Word)
  | addressingFailure (addr : Word) (kind : AccessKind) (opAt : Word)
  deriving DecidableEq, Repr

/-- The run state (10 R28). The fault record exists in `faulted` only (10 R29). -/
inductive RunState where
  | running
  | halted
  | faulted (r : FaultRecord)
  deriving DecidableEq, Repr

/-- The machine's state. -/
structure State where
  /-- the accumulator A (10 R11) -/
  a     : Byte
  /-- index register X (10 R12) -/
  x     : Byte
  /-- index register Y (10 R13) -/
  y     : Byte
  /-- the stack pointer SP (10 R14) -/
  sp    : Byte
  /-- the status register P: N V U B D I Z C in bits 7 to 0 (10 R16) -/
  p     : Byte
  /-- the program counter PC (10 R15) -/
  pc    : Word
  /-- the run state and fault record (10 R28, R29) -/
  run   : RunState
  /-- the host's memory (20 R40) -/
  mem   : Memory
  /-- the host's bus: how it deals with each request (20 R41, R42) -/
  bus   : Bus
  /-- the accesses serviced so far, newest first: what the bus has seen (20 R46, 40 R118), which is all that the bus's own
  state can depend on (20 R41; log entry 3) -/
  trace : List BusAccess
  deriving DecidableEq, Repr

/-- The machine right after reset with nothing loaded (10 R31): every register zero, PC at the default START_PC, Running,
no fault record, on the default platform with its default fill (20 R50). -/
def State.reset : State :=
  { a := 0x00, x := 0x00, y := 0x00, sp := 0x00, p := 0x00, pc := Config.startPc, run := .running,
    mem := [], bus := Bus.flatRam64K, trace := [] }

/-- Why a state has no step (40 R120): the stuck states of 93 U4. Both are safe: the machine stops where the spec
defines no step. The two failures of 60 R240 are not here: they are next states whose run state is `faulted`. -/
inductive Fault where
  /-- Raised by `step` in the run state Halted. Safe. -/
  | haltedHasNoStep
  /-- Raised by `step` in the run state Faulted; carries the record of the failure that ended the run. Safe. -/
  | faultedHasNoStep (r : FaultRecord)
  deriving DecidableEq, Repr

/-- Reasons to refuse an instruction. -/
inductive Refusal where
  /-- Raised by an arm of `exec` whose instruction has no meaning yet; no arm is left that raises it. Safe. -/
  | notModelled (mnemonic : String)
  deriving DecidableEq, Repr

/-- What one step or one meaning ends in. -/
abbrev Outcome := Host.Outcome State Fault Refusal

/-- How an operation inside a step ends: it is done, with a value and the state so far, or it raised a fault, with the
state at the moment of the failing access (40 R121, 60 R243). -/
inductive Res (α : Type) where
  | done (v : α) (s : State)
  | raised (s : State)
  deriving DecidableEq, Repr

end Sys2Proof.Machine
end

