-- ==== Sys2Proof/Machine/Memory.lean ====
section
/-! DEFINITION. Reading and writing the host's memory, its canonical form, and how the bus deals with a request
(20_memory.md R40 to R42, R50). -/

namespace Sys2Proof.Machine

/-- The byte at an address, given as a number. -/
def Memory.cell : Memory → Nat → Byte
  | [], _ => Config.memInit
  | (k, v) :: m, a => if k = a then v else Memory.cell m a

/-- Put an entry in front of the first entry with a higher address. -/
def Memory.insert (a : Nat) (v : Byte) : Memory → Memory
  | [] => [(a, v)]
  | (k, w) :: m => if a < k then (a, v) :: (k, w) :: m else (k, w) :: Memory.insert a v m

/-- Store a byte at an address given as a number: what stood there goes, and the new byte is listed unless it is what an
unlisted address reads as. -/
def Memory.put (m : Memory) (a : Nat) (v : Byte) : Memory :=
  let others := m.filter fun c => c.1 != a
  if v = Config.memInit then others else Memory.insert a v others

/-- `mem(a)` (20 R50). -/
def Memory.read (m : Memory) (a : Word) : Byte := Memory.cell m a.toNat

/-- `mem[a := v]` (20 R50). -/
def Memory.write (m : Memory) (a : Word) (v : Byte) : Memory := Memory.put m a.toNat v

/-- From `lo` on: addresses strictly rising, inside the address space, no entry equal to the default. -/
def Memory.wfFrom : Nat → Memory → Bool
  | _, [] => true
  | lo, (k, v) :: m => decide (lo ≤ k) && decide (k < Config.cells) && v != Config.memInit && Memory.wfFrom (k + 1) m

/-- The canonical form: equal memories are equal lists. -/
def Memory.wf (m : Memory) : Bool := Memory.wfFrom 0 m

/-- Memory in which every cell holds `v` (the fill of `FlatRAM64K`, 20 R50). -/
def Memory.filled (v : Byte) : Memory :=
  if v = Config.memInit then [] else (List.range Config.cells).map fun a => (a, v)

/-- The image copied in: `image[i]` at `base + i` (20 R49). -/
def Memory.load (base : Nat) : List Byte → Memory → Memory
  | [], m => m
  | b :: bs, m => Memory.load (base + 1) bs (Memory.put m base b)

def BusRequest.kind : BusRequest → AccessKind
  | .read _ => .read
  | .write _ _ => .write

def BusRequest.addr : BusRequest → Word
  | .read a => a
  | .write a _ => a

/-- Whether a request is a write of this byte. -/
def BusRequest.carries : BusRequest → Byte → Bool
  | .read _, _ => false
  | .write _ v, b => v == b

/-- The request an access answered. -/
def BusAccess.request (q : BusAccess) : BusRequest :=
  match q.kind with
  | .read => .read q.addr
  | .write => .write q.addr q.value

/-- Whether an address is in a case's range. -/
def BusCase.holds (c : BusCase) (a : Word) : Bool := decide (c.base ≤ a.toNat) && decide (a.toNat < c.base + c.size)

/-- Whether a case is about a request made in a phase. -/
def BusCase.applies (c : BusCase) (phase : Nat) (q : BusRequest) : Bool :=
  c.kind == q.kind && c.holds q.addr && c.phase.all (· == phase) && c.byte.all q.carries

/-- The case that decides about a request in a phase: the first that is about it. -/
def Bus.caseAt (b : Bus) (phase : Nat) (q : BusRequest) : Option BusCase := b.cases.find? fun c => c.applies phase q

/-- The phase after a serviced request. -/
def Bus.advance (b : Bus) (phase : Nat) (q : BusRequest) : Nat :=
  ((b.caseAt phase q).bind fun c => c.next).getD phase

/-- The phase of the bus after the accesses it has seen, newest first. Before the first it is 0. -/
def Bus.phase (b : Bus) (seen : List BusAccess) : Nat := seen.foldr (fun q phase => b.advance phase q.request) 0

/-- How the bus deals with a request, having seen these accesses (20 R41). -/
def Bus.reply (b : Bus) (seen : List BusAccess) (q : BusRequest) : Reply :=
  match b.caseAt (b.phase seen) q with
  | some c => c.reply
  | none => .refuse

/-- Whether the bus services a request, having seen these accesses; otherwise it refuses it (20 R42). -/
def Bus.services (b : Bus) (seen : List BusAccess) (q : BusRequest) : Bool :=
  match b.reply seen q with
  | .refuse => false
  | .memory => true
  | .answer _ => true
  | .device id => (Config.deviceReply id seen q).isSome

/-- Whether every read of an address is served by plain memory, whatever the bus has seen. -/
def Bus.readsMemory (b : Bus) (a : Word) : Bool :=
  match b.cases.find? fun c => c.kind == .read && c.holds a with
  | some c => c.reply == .memory && c.phase == none && c.byte == none
  | none => false

/-- A bus whose reads of `a` are served by plain memory. -/
def Bus.openForRead (b : Bus) (a : Word) : Bus :=
  if b.readsMemory a then b else ⟨⟨.read, a.toNat, 1, .memory, none, none, none⟩ :: b.cases⟩

end Sys2Proof.Machine
end

