-- ==== Sys2Proof/Machine/Ops.lean ====
section
/-! DEFINITION. The named operations over registers and memory: the register accessors (10_state.md R33), the bus
primitives (20_memory.md R41), raising a fault (60_exceptions.md R241, R242), `Fetch8` (40 R101), and the stack
primitives (44 R180, R181). -/

namespace Sys2Proof.Machine

def State.setA (s : State) (v : Byte) : State := { s with a := v }
def State.setX (s : State) (v : Byte) : State := { s with x := v }
def State.setY (s : State) (v : Byte) : State := { s with y := v }
def State.setSp (s : State) (v : Byte) : State := { s with sp := v }
def State.setP (s : State) (v : Byte) : State := { s with p := v }
def State.setPc (s : State) (w : Word) : State := { s with pc := w }
def State.setRun (s : State) (r : RunState) : State := { s with run := r }
def State.setMem (s : State) (m : Memory) : State := { s with mem := m }
def State.setBus (s : State) (b : Bus) : State := { s with bus := b }

/-- Note a serviced access (20 R46). -/
def State.record (s : State) (k : AccessKind) (a : Word) (v : Byte) : State :=
  { s with trace := ⟨k, a, v⟩ :: s.trace }

/-- Whether the bus services a request now; otherwise it refuses it (20 R42). -/
def State.services (s : State) (q : BusRequest) : Bool := s.bus.services s.trace q

/-- The byte a serviced read gives (20 R41): what memory holds, what the bus answers, or what a device answers to this
access after all those before it (R47, R52). A refused read gives no byte; no rule uses this of one. -/
def State.busByte (s : State) (a : Word) : Byte :=
  match s.bus.reply s.trace (.read a) with
  | .refuse => 0x00
  | .memory => s.mem.read a
  | .answer v => v
  | .device id => (Config.deviceReply id s.trace (.read a)).getD 0x00

/-- Serviced reads of these addresses, in this order, noted with the bytes they give. -/
def State.recordReads (s : State) (l : List Word) : State :=
  l.foldl (fun t a => t.record .read a (t.busByte a)) s

/-- Memory after a serviced write: the byte stored where plain memory serves it; what is written elsewhere reaches no
cell. -/
def State.written (s : State) (a : Word) (v : Byte) : Memory :=
  if s.bus.reply s.trace (.write a v) = .memory then s.mem.write a v else s.mem

/-- The state after a serviced write: the byte stored, the access noted. -/
def State.store (s : State) (a : Word) (v : Byte) : State := (s.setMem (s.written a v)).record .write a v

/-- The state after a request the bus services. -/
def State.serviced (s : State) : BusRequest → State
  | .read a => s.record .read a (s.busByte a)
  | .write a v => s.store a v

/-- The state after these requests, each serviced, in this order. -/
def State.servicedAll (s : State) (l : List BusRequest) : State := l.foldl State.serviced s

/-- Whether the bus services all these requests, made in this order (20 R48). -/
def State.servicesAll (s : State) : List BusRequest → Bool
  | [] => true
  | q :: l => s.services q && State.servicesAll (s.serviced q) l

/-- Whether the bus services reads of all these addresses, in this order. -/
def State.servicesReads (s : State) (l : List Word) : Bool := s.servicesAll (l.map .read)

/-- Raise a fault (60 R241, R242): the run state becomes Faulted with the record, and nothing else changes: nothing is
pushed, no vector is read, PC stays (60 R248). There is no return from it (60 R249). -/
def State.raise (s : State) (r : FaultRecord) : State := s.setRun (.faulted r)

/-- The address of the opcode of the instruction in progress, once its `len` bytes have been fetched and PC stands past
them (40 R100, R103). -/
def State.opAt (s : State) (len : Word) : Word := s.pc - len

/-- Go on with a value and the state so far; a raised fault ends the step (40 R100). -/
def Res.bind {α β : Type} (r : Res α) (f : α → State → Res β) : Res β :=
  match r with
  | .done v s => f v s
  | .raised s => .raised s

/-- The outcome of a finished operation. A fault of the spec is a next state whose run state is Faulted (60 R243). -/
def Res.outcome (r : Res Unit) : Outcome :=
  match r with
  | .done _ s => .next s
  | .raised s => .next s

/-- `MemRead(addr, 1)` (20 R41, R42). `opAt` is the address of the opcode of the instruction in progress. -/
def memRead (opAt a : Word) (s : State) : Res Byte :=
  if s.services (.read a) then .done (s.busByte a) (s.record .read a (s.busByte a))
  else .raised (s.raise (.addressingFailure a .read opAt))

/-- `MemWrite(addr, 1, v)` (20 R41, R42). -/
def memWrite (opAt a : Word) (v : Byte) (s : State) : Res Unit :=
  if s.services (.write a v) then .done () (s.store a v)
  else .raised (s.raise (.addressingFailure a .write opAt))

/-- `Fetch8()` (40 R101): read, then advance PC; a refused read leaves PC. -/
def fetch8 (opAt : Word) (s : State) : Res Byte :=
  (memRead opAt s.pc s).bind fun v t => .done v (t.setPc (t.pc + 1))

/-- `Push8(v)` (44 R180): write at `0x0100 + SP`, then decrement SP; a refused write leaves SP. -/
def push8 (opAt : Word) (v : Byte) (s : State) : Res Unit :=
  (memWrite opAt (stackAddr s.sp) v s).bind fun _ t => .done () (t.setSp (t.sp - 1))

/-- `Pull8()` (44 R181): increment SP, then read at `0x0100 + SP`; a refused read leaves SP incremented. -/
def pull8 (opAt : Word) (s : State) : Res Byte :=
  let t := s.setSp (s.sp + 1)
  memRead opAt (stackAddr t.sp) t

end Sys2Proof.Machine
end

