-- ==== Sys2Proof/Machine/Flags.lean ====
section
/-! DEFINITION. The status register's bits (10_state.md R16) and every flag computation: `SetZN` (10 R27), the adder
(41 R130), the compare (41 R136), the bit test (41 R140), shifts and rotates (42 R150 to R153). -/

namespace Sys2Proof.Machine

/-- The eight bits of P (10 R16). -/
inductive Flag where
  | c | z | i | d | b | u | v | n
  deriving DecidableEq, Repr

/-- The bit number of a flag (10 R16). -/
def Flag.index : Flag → Nat
  | .c => 0 | .z => 1 | .i => 2 | .d => 3 | .b => 4 | .u => 5 | .v => 6 | .n => 7

/-- The mask of a flag (10 R16). -/
def Flag.mask (f : Flag) : Byte := BitVec.twoPow 8 f.index

/-- `P.F` read from a status byte. -/
def getFlag (p : Byte) (f : Flag) : Bool := p.getLsbD f.index

/-- `P.F <- v` on a status byte; the other seven bits stay (00 R8). -/
def putFlag (p : Byte) (f : Flag) (v : Bool) : Byte := if v then p ||| f.mask else p &&& ~~~f.mask

/-- `P.F` (00 R8). -/
def State.flag (s : State) (f : Flag) : Bool := getFlag s.p f

/-- `P.F <- v` (00 R8, 10 R33). -/
def State.setFlag (s : State) (f : Flag) (v : Bool) : State := s.setP (putFlag s.p f v)

/-- Bit 7 of a byte. -/
def bit7 (v : Byte) : Bool := v.getLsbD 7

/-- `SetZN(v)` on a status byte (10 R27). -/
def zn (p v : Byte) : Byte := putFlag (putFlag p .z (v == 0)) .n (bit7 v)

/-- `SetZN(v)` (10 R27): bits 1 and 7 of P, nothing else. -/
def State.setZN (s : State) (v : Byte) : State := s.setP (zn s.p v)

/-- What the adder gives: the result byte, the carry out, the signed overflow (41 R130). -/
structure Sum where
  r    : Byte
  cout : Bool
  vout : Bool
  deriving DecidableEq, Repr

/-- `AddWithCarry(a, m, c)` (41 R130). -/
def addWithCarry (a m : Byte) (c : Bool) : Sum :=
  let sum := a.toNat + m.toNat + c.toNat
  let r := BitVec.ofNat 8 sum
  { r := r, cout := decide (sum > 0xFF), vout := ((a ^^^ r) &&& (m ^^^ r) &&& 0x80) != 0 }

/-- The status byte after ADC or SBC: C and V from the adder, then Z and N from the result (41 R131, R132). -/
def sumFlags (p : Byte) (q : Sum) : Byte := zn (putFlag (putFlag p .c q.cout) .v q.vout) q.r

/-- `Compare(r, m)` on a status byte (41 R136): C on the unsigned order, Z and N from the wrapped difference. -/
def compareFlags (p r m : Byte) : Byte := zn (putFlag p .c (decide (m.toNat ≤ r.toNat))) (r - m)

/-- The status byte after BIT (41 R140): Z from `A AND M`, V and N from bits 6 and 7 of `M`. -/
def bitFlags (p a m : Byte) : Byte :=
  putFlag (putFlag (putFlag p .z (a &&& m == 0)) .v (m.getLsbD 6)) .n (m.getLsbD 7)

/-- A byte and the status byte that go into and come out of a one-operand operation. -/
structure Altered where
  value : Byte
  p     : Byte
  deriving DecidableEq, Repr

/-- ASL of `old` under status `p` (42 R150). -/
def aslOp (old p : Byte) : Altered :=
  let new := old <<< 1
  { value := new, p := zn (putFlag p .c (old.getLsbD 7)) new }

/-- LSR of `old` under status `p` (42 R151). -/
def lsrOp (old p : Byte) : Altered :=
  let new := old >>> 1
  { value := new, p := zn (putFlag p .c (old.getLsbD 0)) new }

/-- ROL of `old` under status `p` (42 R152): the old carry enters bit 0. -/
def rolOp (old p : Byte) : Altered :=
  let new := (old <<< 1) ||| (if getFlag p .c then 0x01 else 0x00)
  { value := new, p := zn (putFlag p .c (old.getLsbD 7)) new }

/-- ROR of `old` under status `p` (42 R153): the old carry enters bit 7. -/
def rorOp (old p : Byte) : Altered :=
  let new := (old >>> 1) ||| (if getFlag p .c then 0x80 else 0x00)
  { value := new, p := zn (putFlag p .c (old.getLsbD 0)) new }

/-- INC of `old` under status `p` (42 R155): C untouched. -/
def incOp (old p : Byte) : Altered := { value := old + 1, p := zn p (old + 1) }

/-- DEC of `old` under status `p` (42 R156): C untouched. -/
def decOp (old p : Byte) : Altered := { value := old - 1, p := zn p (old - 1) }

end Sys2Proof.Machine
end

