-- ==== Sys2Proof/Machine/Operands.lean ====
section
/-! DEFINITION. The operand forms (40_execution_and_addressing.md R104 to R116) and what the classes of instructions do
with them (40 R117). A meaning runs when the operand bytes are fetched and PC stands past the instruction (40 R103). -/

namespace Sys2Proof.Machine

/-- The modes that resolve to an effective address, with their operand (40 R103, `Addr(EA)`). -/
inductive MemMode where
  | zp (b : Byte) | zpx (b : Byte) | zpy (b : Byte)
  | abs (w : Word) | abx (w : Word) | aby (w : Word)
  | ind (w : Word) | izx (b : Byte) | izy (b : Byte)
  deriving DecidableEq, Repr

/-- Where a reading instruction takes its operand byte `M` from (40 R117). -/
inductive Src where
  | imm (v : Byte)
  | mem (m : MemMode)
  deriving DecidableEq, Repr

/-- The length in bytes of an instruction with this mode (30 R71, R73). -/
def MemMode.length : MemMode → Word
  | .zp _ => 2 | .zpx _ => 2 | .zpy _ => 2
  | .abs _ => 3 | .abx _ => 3 | .aby _ => 3
  | .ind _ => 3 | .izx _ => 2 | .izy _ => 2

/-- The length in bytes of a reading instruction (30 R71, R73). -/
def Src.length : Src → Word
  | .imm _ => 2
  | .mem m => m.length

/-- A pointer read from the bus: the low byte at `lo`, then the high byte at `hi` (20 R43, 40 R113 to R115). -/
def readPointer (opAt lo hi : Word) (s : State) : Res Word :=
  (memRead opAt lo s).bind fun l t => (memRead opAt hi t).bind fun h u => .done (wordOf h l) u

/-- `Resolve(mode)` for the modes with an effective address (40 R107 to R115). -/
def resolve (opAt : Word) (m : MemMode) (s : State) : Res Word :=
  match m with
  | .zp b => .done (zeroPage b) s
  | .zpx b => .done (zeroPage (b + s.x)) s
  | .zpy b => .done (zeroPage (b + s.y)) s
  | .abs w => .done w s
  | .abx w => .done (w + zext16 s.x) s
  | .aby w => .done (w + zext16 s.y) s
  | .ind w => readPointer opAt w (wordOf (hi8 w) (lo8 w + 1)) s
  | .izx b => readPointer opAt (zeroPage (b + s.x)) (zeroPage (b + s.x + 1)) s
  | .izy b => (readPointer opAt (zeroPage b) (zeroPage (b + 1)) s).bind fun base t => .done (base + zext16 t.y) t

/-- The operand byte `M` (40 R117): the immediate byte, or one read of the effective address after the resolver's
reads. -/
def loadOperand (opAt : Word) (src : Src) (s : State) : Res Byte :=
  match src with
  | .imm v => .done v s
  | .mem m => (resolve opAt m s).bind fun ea t => memRead opAt ea t

/-- Class read (40 R117): get `M`, then the instruction's effect. -/
def readClass (src : Src) (effect : Byte → State → State) (s : State) : Outcome :=
  ((loadOperand (s.opAt src.length) src s).bind fun m t => .done () (effect m t)).outcome

/-- Class write (40 R117): one write of `v` to the effective address, which is not read. -/
def writeClass (m : MemMode) (v : Byte) (s : State) : Outcome :=
  ((resolve (s.opAt m.length) m s).bind fun ea t => memWrite (s.opAt m.length) ea v t).outcome

/-- Class read-modify-write (40 R117, 42 R154): read, compute, write the new value once, then the flags. -/
def modifyClass (m : MemMode) (op : Byte → Byte → Altered) (s : State) : Outcome :=
  let opAt := s.opAt m.length
  ((resolve opAt m s).bind fun ea t =>
    (memRead opAt ea t).bind fun old u =>
      (memWrite opAt ea (op old u.p).value u).bind fun _ v =>
        .done () (v.setP (op old v.p).p)).outcome

/-- Class accumulator (40 R117, 42 R154): the operation on A, no bus access. -/
def accumulatorClass (op : Byte → Byte → Altered) (s : State) : Outcome :=
  .next ((s.setA (op s.a s.p).value).setP (op s.a s.p).p)

/-- Class branch (40 R116, 46 R221): PC already stands past the two bytes; the target is that PC plus the offset. -/
def branchClass (cond : Bool) (off : Byte) (s : State) : Outcome :=
  .next (if cond then s.setPc (s.pc + sext16 off) else s)

end Sys2Proof.Machine
end

