-- ==== Sys2Proof/Machine/Arithmetic.lean ====
section
/-! DEFINITION. The first half of the ALU: ADC, SBC, AND, ORA, EOR, CMP, CPX, CPY, BIT
(41_alu_arithmetic_logic_compare.md). -/

namespace Sys2Proof.Machine

/-- The effect of `ADC` (41 R131): binary whatever D is (41 R141). -/
def adcEffect (m : Byte) (s : State) : State :=
  let q := addWithCarry s.a m (s.flag .c)
  (s.setA q.r).setP (sumFlags s.p q)

/-- ADC, immediate (R131). -/
def execAdcImm (v : Byte) (s : State) : Outcome := readClass (.imm v) adcEffect s

/-- ADC, zero page (R131). -/
def execAdcZp (b : Byte) (s : State) : Outcome := readClass (.mem (.zp b)) adcEffect s

/-- ADC, zero page,X (R131). -/
def execAdcZpx (b : Byte) (s : State) : Outcome := readClass (.mem (.zpx b)) adcEffect s

/-- ADC, absolute (R131). -/
def execAdcAbs (w : Word) (s : State) : Outcome := readClass (.mem (.abs w)) adcEffect s

/-- ADC, absolute,X (R131). -/
def execAdcAbx (w : Word) (s : State) : Outcome := readClass (.mem (.abx w)) adcEffect s

/-- ADC, absolute,Y (R131). -/
def execAdcAby (w : Word) (s : State) : Outcome := readClass (.mem (.aby w)) adcEffect s

/-- ADC, indirect,X (R131). -/
def execAdcIzx (b : Byte) (s : State) : Outcome := readClass (.mem (.izx b)) adcEffect s

/-- ADC, indirect,Y (R131). -/
def execAdcIzy (b : Byte) (s : State) : Outcome := readClass (.mem (.izy b)) adcEffect s

/-- The effect of `SBC` (41 R132): ADC of the complemented operand; binary whatever D is (41 R141). -/
def sbcEffect (m : Byte) (s : State) : State :=
  let q := addWithCarry s.a (~~~m) (s.flag .c)
  (s.setA q.r).setP (sumFlags s.p q)

/-- SBC, immediate (R132). -/
def execSbcImm (v : Byte) (s : State) : Outcome := readClass (.imm v) sbcEffect s

/-- SBC, zero page (R132). -/
def execSbcZp (b : Byte) (s : State) : Outcome := readClass (.mem (.zp b)) sbcEffect s

/-- SBC, zero page,X (R132). -/
def execSbcZpx (b : Byte) (s : State) : Outcome := readClass (.mem (.zpx b)) sbcEffect s

/-- SBC, absolute (R132). -/
def execSbcAbs (w : Word) (s : State) : Outcome := readClass (.mem (.abs w)) sbcEffect s

/-- SBC, absolute,X (R132). -/
def execSbcAbx (w : Word) (s : State) : Outcome := readClass (.mem (.abx w)) sbcEffect s

/-- SBC, absolute,Y (R132). -/
def execSbcAby (w : Word) (s : State) : Outcome := readClass (.mem (.aby w)) sbcEffect s

/-- SBC, indirect,X (R132). -/
def execSbcIzx (b : Byte) (s : State) : Outcome := readClass (.mem (.izx b)) sbcEffect s

/-- SBC, indirect,Y (R132). -/
def execSbcIzy (b : Byte) (s : State) : Outcome := readClass (.mem (.izy b)) sbcEffect s

/-- The effect of `AND` (41 R133). -/
def andEffect (m : Byte) (s : State) : State := (s.setA (s.a &&& m)).setZN (s.a &&& m)

/-- AND, immediate (R133). -/
def execAndImm (v : Byte) (s : State) : Outcome := readClass (.imm v) andEffect s

/-- AND, zero page (R133). -/
def execAndZp (b : Byte) (s : State) : Outcome := readClass (.mem (.zp b)) andEffect s

/-- AND, zero page,X (R133). -/
def execAndZpx (b : Byte) (s : State) : Outcome := readClass (.mem (.zpx b)) andEffect s

/-- AND, absolute (R133). -/
def execAndAbs (w : Word) (s : State) : Outcome := readClass (.mem (.abs w)) andEffect s

/-- AND, absolute,X (R133). -/
def execAndAbx (w : Word) (s : State) : Outcome := readClass (.mem (.abx w)) andEffect s

/-- AND, absolute,Y (R133). -/
def execAndAby (w : Word) (s : State) : Outcome := readClass (.mem (.aby w)) andEffect s

/-- AND, indirect,X (R133). -/
def execAndIzx (b : Byte) (s : State) : Outcome := readClass (.mem (.izx b)) andEffect s

/-- AND, indirect,Y (R133). -/
def execAndIzy (b : Byte) (s : State) : Outcome := readClass (.mem (.izy b)) andEffect s

/-- The effect of `ORA` (41 R134). -/
def oraEffect (m : Byte) (s : State) : State := (s.setA (s.a ||| m)).setZN (s.a ||| m)

/-- ORA, immediate (R134). -/
def execOraImm (v : Byte) (s : State) : Outcome := readClass (.imm v) oraEffect s

/-- ORA, zero page (R134). -/
def execOraZp (b : Byte) (s : State) : Outcome := readClass (.mem (.zp b)) oraEffect s

/-- ORA, zero page,X (R134). -/
def execOraZpx (b : Byte) (s : State) : Outcome := readClass (.mem (.zpx b)) oraEffect s

/-- ORA, absolute (R134). -/
def execOraAbs (w : Word) (s : State) : Outcome := readClass (.mem (.abs w)) oraEffect s

/-- ORA, absolute,X (R134). -/
def execOraAbx (w : Word) (s : State) : Outcome := readClass (.mem (.abx w)) oraEffect s

/-- ORA, absolute,Y (R134). -/
def execOraAby (w : Word) (s : State) : Outcome := readClass (.mem (.aby w)) oraEffect s

/-- ORA, indirect,X (R134). -/
def execOraIzx (b : Byte) (s : State) : Outcome := readClass (.mem (.izx b)) oraEffect s

/-- ORA, indirect,Y (R134). -/
def execOraIzy (b : Byte) (s : State) : Outcome := readClass (.mem (.izy b)) oraEffect s

/-- The effect of `EOR` (41 R135). -/
def eorEffect (m : Byte) (s : State) : State := (s.setA (s.a ^^^ m)).setZN (s.a ^^^ m)

/-- EOR, immediate (R135). -/
def execEorImm (v : Byte) (s : State) : Outcome := readClass (.imm v) eorEffect s

/-- EOR, zero page (R135). -/
def execEorZp (b : Byte) (s : State) : Outcome := readClass (.mem (.zp b)) eorEffect s

/-- EOR, zero page,X (R135). -/
def execEorZpx (b : Byte) (s : State) : Outcome := readClass (.mem (.zpx b)) eorEffect s

/-- EOR, absolute (R135). -/
def execEorAbs (w : Word) (s : State) : Outcome := readClass (.mem (.abs w)) eorEffect s

/-- EOR, absolute,X (R135). -/
def execEorAbx (w : Word) (s : State) : Outcome := readClass (.mem (.abx w)) eorEffect s

/-- EOR, absolute,Y (R135). -/
def execEorAby (w : Word) (s : State) : Outcome := readClass (.mem (.aby w)) eorEffect s

/-- EOR, indirect,X (R135). -/
def execEorIzx (b : Byte) (s : State) : Outcome := readClass (.mem (.izx b)) eorEffect s

/-- EOR, indirect,Y (R135). -/
def execEorIzy (b : Byte) (s : State) : Outcome := readClass (.mem (.izy b)) eorEffect s

/-- The effect of `CMP` (41 R137). -/
def cmpEffect (m : Byte) (s : State) : State := s.setP (compareFlags s.p s.a m)

/-- CMP, immediate (R137). -/
def execCmpImm (v : Byte) (s : State) : Outcome := readClass (.imm v) cmpEffect s

/-- CMP, zero page (R137). -/
def execCmpZp (b : Byte) (s : State) : Outcome := readClass (.mem (.zp b)) cmpEffect s

/-- CMP, zero page,X (R137). -/
def execCmpZpx (b : Byte) (s : State) : Outcome := readClass (.mem (.zpx b)) cmpEffect s

/-- CMP, absolute (R137). -/
def execCmpAbs (w : Word) (s : State) : Outcome := readClass (.mem (.abs w)) cmpEffect s

/-- CMP, absolute,X (R137). -/
def execCmpAbx (w : Word) (s : State) : Outcome := readClass (.mem (.abx w)) cmpEffect s

/-- CMP, absolute,Y (R137). -/
def execCmpAby (w : Word) (s : State) : Outcome := readClass (.mem (.aby w)) cmpEffect s

/-- CMP, indirect,X (R137). -/
def execCmpIzx (b : Byte) (s : State) : Outcome := readClass (.mem (.izx b)) cmpEffect s

/-- CMP, indirect,Y (R137). -/
def execCmpIzy (b : Byte) (s : State) : Outcome := readClass (.mem (.izy b)) cmpEffect s

/-- The effect of `CPX` (41 R138). -/
def cpxEffect (m : Byte) (s : State) : State := s.setP (compareFlags s.p s.x m)

/-- CPX, immediate (R138). -/
def execCpxImm (v : Byte) (s : State) : Outcome := readClass (.imm v) cpxEffect s

/-- CPX, zero page (R138). -/
def execCpxZp (b : Byte) (s : State) : Outcome := readClass (.mem (.zp b)) cpxEffect s

/-- CPX, absolute (R138). -/
def execCpxAbs (w : Word) (s : State) : Outcome := readClass (.mem (.abs w)) cpxEffect s

/-- The effect of `CPY` (41 R139). -/
def cpyEffect (m : Byte) (s : State) : State := s.setP (compareFlags s.p s.y m)

/-- CPY, immediate (R139). -/
def execCpyImm (v : Byte) (s : State) : Outcome := readClass (.imm v) cpyEffect s

/-- CPY, zero page (R139). -/
def execCpyZp (b : Byte) (s : State) : Outcome := readClass (.mem (.zp b)) cpyEffect s

/-- CPY, absolute (R139). -/
def execCpyAbs (w : Word) (s : State) : Outcome := readClass (.mem (.abs w)) cpyEffect s

/-- The effect of `BIT` (41 R140): A and C stay. -/
def bitEffect (m : Byte) (s : State) : State := s.setP (bitFlags s.p s.a m)

/-- BIT, zero page (R140). -/
def execBitZp (b : Byte) (s : State) : Outcome := readClass (.mem (.zp b)) bitEffect s

/-- BIT, absolute (R140). -/
def execBitAbs (w : Word) (s : State) : Outcome := readClass (.mem (.abs w)) bitEffect s

end Sys2Proof.Machine
end

