-- ==== Sys2Proof/Machine/Control.lean ====
section
/-! DEFINITION. Control flow: JMP, the eight branches, NOP, HLT (46_control_flow.md), and a byte with no table entry
(60_exceptions.md R241). -/

namespace Sys2Proof.Machine

/-- JMP, absolute (R220). -/
def execJmpAbs (w : Word) (s : State) : Outcome := .next (s.setPc w)

/-- JMP, indirect (R220, 40 R115): the pointer's high byte comes from the pointer's own page. -/
def execJmpInd (w : Word) (s : State) : Outcome :=
  ((resolve (s.opAt 3) (.ind w) s).bind fun ea t => .done () (t.setPc ea)).outcome

/-- BPL (R222): taken when N = 0. -/
def execBpl (off : Byte) (s : State) : Outcome := branchClass (!s.flag .n) off s

/-- BMI (R223): taken when N = 1. -/
def execBmi (off : Byte) (s : State) : Outcome := branchClass (s.flag .n) off s

/-- BVC (R224): taken when V = 0. -/
def execBvc (off : Byte) (s : State) : Outcome := branchClass (!s.flag .v) off s

/-- BVS (R225): taken when V = 1. -/
def execBvs (off : Byte) (s : State) : Outcome := branchClass (s.flag .v) off s

/-- BCC (R226): taken when C = 0. -/
def execBcc (off : Byte) (s : State) : Outcome := branchClass (!s.flag .c) off s

/-- BCS (R227): taken when C = 1. -/
def execBcs (off : Byte) (s : State) : Outcome := branchClass (s.flag .c) off s

/-- BNE (R228): taken when Z = 0. -/
def execBne (off : Byte) (s : State) : Outcome := branchClass (!s.flag .z) off s

/-- BEQ (R229): taken when Z = 1. -/
def execBeq (off : Byte) (s : State) : Outcome := branchClass (s.flag .z) off s

/-- NOP (R230): nothing beyond its fetch. -/
def execNop (s : State) : Outcome := .next s

/-- HLT (R231): the run state becomes Halted, nothing else changes. -/
def execHlt (s : State) : Outcome := .next (s.setRun .halted)

/-- A byte with no table entry (60 R241): DecodeFailure with the byte and the address it was fetched from; PC stays past
that one byte (90 C6). -/
def execIllegal (op : Byte) (s : State) : Outcome := .next (s.raise (.decodeFailure op (s.opAt 1)))

end Sys2Proof.Machine
end

