-- ==== Sys2Proof/Machine/FlagOps.lean ====
section
/-! DEFINITION. The flag instructions CLC, SEC, CLI, SEI, CLD, SED, CLV: one bit of P each (43_flag_instructions.md). -/

namespace Sys2Proof.Machine

/-- CLC (R170). -/
def execClc (s : State) : Outcome := .next (s.setFlag .c false)

/-- SEC (R171). -/
def execSec (s : State) : Outcome := .next (s.setFlag .c true)

/-- CLI (R172). -/
def execCli (s : State) : Outcome := .next (s.setFlag .i false)

/-- SEI (R173). -/
def execSei (s : State) : Outcome := .next (s.setFlag .i true)

/-- CLD (R174). -/
def execCld (s : State) : Outcome := .next (s.setFlag .d false)

/-- SED (R175). -/
def execSed (s : State) : Outcome := .next (s.setFlag .d true)

/-- CLV (R176). -/
def execClv (s : State) : Outcome := .next (s.setFlag .v false)

end Sys2Proof.Machine
end

