-- ==== Sys2Proof/Machine/Shift.lean ====
section
/-! DEFINITION. The second half of the ALU: ASL, LSR, ROL, ROR, INC, DEC, INX, INY, DEX, DEY
(42_shift_rotate_incdec.md). -/

namespace Sys2Proof.Machine

/-- ASL, accumulator (R150, R154). -/
def execAslAcc (s : State) : Outcome := accumulatorClass aslOp s

/-- ASL, zero page (R150, R154). -/
def execAslZp (b : Byte) (s : State) : Outcome := modifyClass (.zp b) aslOp s

/-- ASL, zero page,X (R150, R154). -/
def execAslZpx (b : Byte) (s : State) : Outcome := modifyClass (.zpx b) aslOp s

/-- ASL, absolute (R150, R154). -/
def execAslAbs (w : Word) (s : State) : Outcome := modifyClass (.abs w) aslOp s

/-- ASL, absolute,X (R150, R154). -/
def execAslAbx (w : Word) (s : State) : Outcome := modifyClass (.abx w) aslOp s

/-- LSR, accumulator (R151, R154). -/
def execLsrAcc (s : State) : Outcome := accumulatorClass lsrOp s

/-- LSR, zero page (R151, R154). -/
def execLsrZp (b : Byte) (s : State) : Outcome := modifyClass (.zp b) lsrOp s

/-- LSR, zero page,X (R151, R154). -/
def execLsrZpx (b : Byte) (s : State) : Outcome := modifyClass (.zpx b) lsrOp s

/-- LSR, absolute (R151, R154). -/
def execLsrAbs (w : Word) (s : State) : Outcome := modifyClass (.abs w) lsrOp s

/-- LSR, absolute,X (R151, R154). -/
def execLsrAbx (w : Word) (s : State) : Outcome := modifyClass (.abx w) lsrOp s

/-- ROL, accumulator (R152, R154). -/
def execRolAcc (s : State) : Outcome := accumulatorClass rolOp s

/-- ROL, zero page (R152, R154). -/
def execRolZp (b : Byte) (s : State) : Outcome := modifyClass (.zp b) rolOp s

/-- ROL, zero page,X (R152, R154). -/
def execRolZpx (b : Byte) (s : State) : Outcome := modifyClass (.zpx b) rolOp s

/-- ROL, absolute (R152, R154). -/
def execRolAbs (w : Word) (s : State) : Outcome := modifyClass (.abs w) rolOp s

/-- ROL, absolute,X (R152, R154). -/
def execRolAbx (w : Word) (s : State) : Outcome := modifyClass (.abx w) rolOp s

/-- ROR, accumulator (R153, R154). -/
def execRorAcc (s : State) : Outcome := accumulatorClass rorOp s

/-- ROR, zero page (R153, R154). -/
def execRorZp (b : Byte) (s : State) : Outcome := modifyClass (.zp b) rorOp s

/-- ROR, zero page,X (R153, R154). -/
def execRorZpx (b : Byte) (s : State) : Outcome := modifyClass (.zpx b) rorOp s

/-- ROR, absolute (R153, R154). -/
def execRorAbs (w : Word) (s : State) : Outcome := modifyClass (.abs w) rorOp s

/-- ROR, absolute,X (R153, R154). -/
def execRorAbx (w : Word) (s : State) : Outcome := modifyClass (.abx w) rorOp s

/-- INC, zero page (R155, R154). -/
def execIncZp (b : Byte) (s : State) : Outcome := modifyClass (.zp b) incOp s

/-- INC, zero page,X (R155, R154). -/
def execIncZpx (b : Byte) (s : State) : Outcome := modifyClass (.zpx b) incOp s

/-- INC, absolute (R155, R154). -/
def execIncAbs (w : Word) (s : State) : Outcome := modifyClass (.abs w) incOp s

/-- INC, absolute,X (R155, R154). -/
def execIncAbx (w : Word) (s : State) : Outcome := modifyClass (.abx w) incOp s

/-- DEC, zero page (R156, R154). -/
def execDecZp (b : Byte) (s : State) : Outcome := modifyClass (.zp b) decOp s

/-- DEC, zero page,X (R156, R154). -/
def execDecZpx (b : Byte) (s : State) : Outcome := modifyClass (.zpx b) decOp s

/-- DEC, absolute (R156, R154). -/
def execDecAbs (w : Word) (s : State) : Outcome := modifyClass (.abs w) decOp s

/-- DEC, absolute,X (R156, R154). -/
def execDecAbx (w : Word) (s : State) : Outcome := modifyClass (.abx w) decOp s

/-- INX (R157). -/
def execInx (s : State) : Outcome := .next ((s.setX (s.x + 1)).setZN (s.x + 1))

/-- INY (R158). -/
def execIny (s : State) : Outcome := .next ((s.setY (s.y + 1)).setZN (s.y + 1))

/-- DEX (R159). -/
def execDex (s : State) : Outcome := .next ((s.setX (s.x - 1)).setZN (s.x - 1))

/-- DEY (R160). -/
def execDey (s : State) : Outcome := .next ((s.setY (s.y - 1)).setZN (s.y - 1))

end Sys2Proof.Machine
end

