-- ==== Sys2Proof/Machine/Stack.lean ====
section
/-! DEFINITION. The stack manager: PHA, PLA, PHP, PLP, TXS, TSX, JSR, RTS, RTI (44_stack_and_subroutine.md). -/

namespace Sys2Proof.Machine

/-- PHA (R182). -/
def execPha (s : State) : Outcome := (push8 (s.opAt 1) s.a s).outcome

/-- PLA (R183). -/
def execPla (s : State) : Outcome :=
  ((pull8 (s.opAt 1) s).bind fun v t => .done () ((t.setA v).setZN v)).outcome

/-- PHP (R184): the pushed copy has bits 4 and 5 set, P itself stays. -/
def execPhp (s : State) : Outcome := (push8 (s.opAt 1) (s.p ||| Config.phpForce) s).outcome

/-- PLP (R185): all eight bits, verbatim. -/
def execPlp (s : State) : Outcome := ((pull8 (s.opAt 1) s).bind fun v t => .done () (t.setP v)).outcome

/-- TXS (R186): no flag changes. -/
def execTxs (s : State) : Outcome := .next (s.setSp s.x)

/-- TSX (R187). -/
def execTsx (s : State) : Outcome := .next ((s.setX s.sp).setZN s.sp)

/-- JSR (R188): push the address of the JSR's last byte, high byte first, then PC becomes the target. -/
def execJsr (w : Word) (s : State) : Outcome :=
  let ret := s.pc - 1
  ((push8 (s.opAt 3) (hi8 ret) s).bind fun _ t =>
    (push8 (s.opAt 3) (lo8 ret) t).bind fun _ u => .done () (u.setPc w)).outcome

/-- RTS (R189): low byte first, PC becomes the pulled word plus 1. -/
def execRts (s : State) : Outcome :=
  ((pull8 (s.opAt 1) s).bind fun lo t =>
    (pull8 (s.opAt 1) t).bind fun hi u => .done () (u.setPc (wordOf hi lo + 1))).outcome

/-- RTI (R190): P verbatim, then PC low, then PC high, no increment. There is no interrupt state to restore. -/
def execRti (s : State) : Outcome :=
  ((pull8 (s.opAt 1) s).bind fun v t =>
    (pull8 (s.opAt 1) (t.setP v)).bind fun lo u =>
      (pull8 (s.opAt 1) u).bind fun hi q => .done () (q.setPc (wordOf hi lo))).outcome

end Sys2Proof.Machine
end

