-- ==== Sys2Proof/Machine/Transfer.lean ====
section
/-! DEFINITION. Loads, stores and register transfers: LDA, LDX, LDY, STA, STX, STY, TAX, TAY, TXA, TYA
(45_load_store_transfer.md). -/

namespace Sys2Proof.Machine

/-- The effect of `LDA` (45 R200): C and V stay. -/
def ldaEffect (m : Byte) (s : State) : State := (s.setA m).setZN m

/-- LDA, immediate (R200). -/
def execLdaImm (v : Byte) (s : State) : Outcome := readClass (.imm v) ldaEffect s

/-- LDA, zero page (R200). -/
def execLdaZp (b : Byte) (s : State) : Outcome := readClass (.mem (.zp b)) ldaEffect s

/-- LDA, zero page,X (R200). -/
def execLdaZpx (b : Byte) (s : State) : Outcome := readClass (.mem (.zpx b)) ldaEffect s

/-- LDA, absolute (R200). -/
def execLdaAbs (w : Word) (s : State) : Outcome := readClass (.mem (.abs w)) ldaEffect s

/-- LDA, absolute,X (R200). -/
def execLdaAbx (w : Word) (s : State) : Outcome := readClass (.mem (.abx w)) ldaEffect s

/-- LDA, absolute,Y (R200). -/
def execLdaAby (w : Word) (s : State) : Outcome := readClass (.mem (.aby w)) ldaEffect s

/-- LDA, indirect,X (R200). -/
def execLdaIzx (b : Byte) (s : State) : Outcome := readClass (.mem (.izx b)) ldaEffect s

/-- LDA, indirect,Y (R200). -/
def execLdaIzy (b : Byte) (s : State) : Outcome := readClass (.mem (.izy b)) ldaEffect s

/-- The effect of `LDX` (45 R201): C and V stay. -/
def ldxEffect (m : Byte) (s : State) : State := (s.setX m).setZN m

/-- LDX, immediate (R201). -/
def execLdxImm (v : Byte) (s : State) : Outcome := readClass (.imm v) ldxEffect s

/-- LDX, zero page (R201). -/
def execLdxZp (b : Byte) (s : State) : Outcome := readClass (.mem (.zp b)) ldxEffect s

/-- LDX, zero page,Y (R201). -/
def execLdxZpy (b : Byte) (s : State) : Outcome := readClass (.mem (.zpy b)) ldxEffect s

/-- LDX, absolute (R201). -/
def execLdxAbs (w : Word) (s : State) : Outcome := readClass (.mem (.abs w)) ldxEffect s

/-- LDX, absolute,Y (R201). -/
def execLdxAby (w : Word) (s : State) : Outcome := readClass (.mem (.aby w)) ldxEffect s

/-- The effect of `LDY` (45 R202): C and V stay. -/
def ldyEffect (m : Byte) (s : State) : State := (s.setY m).setZN m

/-- LDY, immediate (R202). -/
def execLdyImm (v : Byte) (s : State) : Outcome := readClass (.imm v) ldyEffect s

/-- LDY, zero page (R202). -/
def execLdyZp (b : Byte) (s : State) : Outcome := readClass (.mem (.zp b)) ldyEffect s

/-- LDY, zero page,X (R202). -/
def execLdyZpx (b : Byte) (s : State) : Outcome := readClass (.mem (.zpx b)) ldyEffect s

/-- LDY, absolute (R202). -/
def execLdyAbs (w : Word) (s : State) : Outcome := readClass (.mem (.abs w)) ldyEffect s

/-- LDY, absolute,X (R202). -/
def execLdyAbx (w : Word) (s : State) : Outcome := readClass (.mem (.abx w)) ldyEffect s

/-- STA, zero page (R203). -/
def execStaZp (b : Byte) (s : State) : Outcome := writeClass (.zp b) s.a s

/-- STA, zero page,X (R203). -/
def execStaZpx (b : Byte) (s : State) : Outcome := writeClass (.zpx b) s.a s

/-- STA, absolute (R203). -/
def execStaAbs (w : Word) (s : State) : Outcome := writeClass (.abs w) s.a s

/-- STA, absolute,X (R203). -/
def execStaAbx (w : Word) (s : State) : Outcome := writeClass (.abx w) s.a s

/-- STA, absolute,Y (R203). -/
def execStaAby (w : Word) (s : State) : Outcome := writeClass (.aby w) s.a s

/-- STA, indirect,X (R203). -/
def execStaIzx (b : Byte) (s : State) : Outcome := writeClass (.izx b) s.a s

/-- STA, indirect,Y (R203). -/
def execStaIzy (b : Byte) (s : State) : Outcome := writeClass (.izy b) s.a s

/-- STX, zero page (R204). -/
def execStxZp (b : Byte) (s : State) : Outcome := writeClass (.zp b) s.x s

/-- STX, zero page,Y (R204). -/
def execStxZpy (b : Byte) (s : State) : Outcome := writeClass (.zpy b) s.x s

/-- STX, absolute (R204). -/
def execStxAbs (w : Word) (s : State) : Outcome := writeClass (.abs w) s.x s

/-- STY, zero page (R205). -/
def execStyZp (b : Byte) (s : State) : Outcome := writeClass (.zp b) s.y s

/-- STY, zero page,X (R205). -/
def execStyZpx (b : Byte) (s : State) : Outcome := writeClass (.zpx b) s.y s

/-- STY, absolute (R205). -/
def execStyAbs (w : Word) (s : State) : Outcome := writeClass (.abs w) s.y s

/-- TAX (R206). -/
def execTax (s : State) : Outcome := .next ((s.setX s.a).setZN s.a)

/-- TAY (R207). -/
def execTay (s : State) : Outcome := .next ((s.setY s.a).setZN s.a)

/-- TXA (R208). -/
def execTxa (s : State) : Outcome := .next ((s.setA s.x).setZN s.x)

/-- TYA (R209). -/
def execTya (s : State) : Outcome := .next ((s.setA s.y).setZN s.y)

end Sys2Proof.Machine
end

