-- ==== Sys2Proof/Syntax.lean ====
section
/-! DEFINITION. The instructions: one constructor for each {mnemonic, addressing mode} pair of the opcode table
(30_encoding.md R74), carrying the operand the mode's bytes form (30 R71, R72), and one constructor for the rows named
ILLEGAL, carrying the opcode byte that has no entry (30 R76). -/

namespace Sys2Proof

/-- The thirteen addressing modes by their short names (30 R71). -/
inductive Mode where
  | imp | acc | imm | zp | zpx | zpy | abs | abx | aby | ind | izx | izy | rel
  deriving DecidableEq, Repr

/-- The 56 mnemonics (30 R74). -/
inductive Mnemonic where
  | adc | and | asl | bcc | bcs | beq | bit | bmi | bne | bpl | bvc | bvs | clc | cld
  | cli | clv | cmp | cpx | cpy | dec | dex | dey | eor | hlt | inc | inx | iny | jmp
  | jsr | lda | ldx | ldy | lsr | nop | ora | pha | php | pla | plp | rol | ror | rti
  | rts | sbc | sec | sed | sei | sta | stx | sty | tax | tay | tsx | txa | txs | tya
  deriving DecidableEq, Repr

/-- The instructions. An immediate is `v`, a zero-page operand byte `b`, a 16-bit operand `w` (low byte first in
memory, 30 R72), a branch offset byte `off`. -/
inductive Instr where
  -- ADC (R131)
  | adcImm (v : Byte)
  | adcZp (b : Byte)
  | adcZpx (b : Byte)
  | adcAbs (w : Word)
  | adcAbx (w : Word)
  | adcAby (w : Word)
  | adcIzx (b : Byte)
  | adcIzy (b : Byte)
  -- AND (R133)
  | andImm (v : Byte)
  | andZp (b : Byte)
  | andZpx (b : Byte)
  | andAbs (w : Word)
  | andAbx (w : Word)
  | andAby (w : Word)
  | andIzx (b : Byte)
  | andIzy (b : Byte)
  -- ASL (R150)
  | aslAcc
  | aslZp (b : Byte)
  | aslZpx (b : Byte)
  | aslAbs (w : Word)
  | aslAbx (w : Word)
  -- BCC (R226)
  | bcc (off : Byte)
  -- BCS (R227)
  | bcs (off : Byte)
  -- BEQ (R229)
  | beq (off : Byte)
  -- BIT (R140)
  | bitZp (b : Byte)
  | bitAbs (w : Word)
  -- BMI (R223)
  | bmi (off : Byte)
  -- BNE (R228)
  | bne (off : Byte)
  -- BPL (R222)
  | bpl (off : Byte)
  -- BVC (R224)
  | bvc (off : Byte)
  -- BVS (R225)
  | bvs (off : Byte)
  -- CLC (R170)
  | clc
  -- CLD (R174)
  | cld
  -- CLI (R172)
  | cli
  -- CLV (R176)
  | clv
  -- CMP (R137)
  | cmpImm (v : Byte)
  | cmpZp (b : Byte)
  | cmpZpx (b : Byte)
  | cmpAbs (w : Word)
  | cmpAbx (w : Word)
  | cmpAby (w : Word)
  | cmpIzx (b : Byte)
  | cmpIzy (b : Byte)
  -- CPX (R138)
  | cpxImm (v : Byte)
  | cpxZp (b : Byte)
  | cpxAbs (w : Word)
  -- CPY (R139)
  | cpyImm (v : Byte)
  | cpyZp (b : Byte)
  | cpyAbs (w : Word)
  -- DEC (R156)
  | decZp (b : Byte)
  | decZpx (b : Byte)
  | decAbs (w : Word)
  | decAbx (w : Word)
  -- DEX (R159)
  | dex
  -- DEY (R160)
  | dey
  -- EOR (R135)
  | eorImm (v : Byte)
  | eorZp (b : Byte)
  | eorZpx (b : Byte)
  | eorAbs (w : Word)
  | eorAbx (w : Word)
  | eorAby (w : Word)
  | eorIzx (b : Byte)
  | eorIzy (b : Byte)
  -- HLT (R231)
  | hlt
  -- INC (R155)
  | incZp (b : Byte)
  | incZpx (b : Byte)
  | incAbs (w : Word)
  | incAbx (w : Word)
  -- INX (R157)
  | inx
  -- INY (R158)
  | iny
  -- JMP (R220)
  | jmpAbs (w : Word)
  | jmpInd (w : Word)
  -- JSR (R188)
  | jsr (w : Word)
  -- LDA (R200)
  | ldaImm (v : Byte)
  | ldaZp (b : Byte)
  | ldaZpx (b : Byte)
  | ldaAbs (w : Word)
  | ldaAbx (w : Word)
  | ldaAby (w : Word)
  | ldaIzx (b : Byte)
  | ldaIzy (b : Byte)
  -- LDX (R201)
  | ldxImm (v : Byte)
  | ldxZp (b : Byte)
  | ldxZpy (b : Byte)
  | ldxAbs (w : Word)
  | ldxAby (w : Word)
  -- LDY (R202)
  | ldyImm (v : Byte)
  | ldyZp (b : Byte)
  | ldyZpx (b : Byte)
  | ldyAbs (w : Word)
  | ldyAbx (w : Word)
  -- LSR (R151)
  | lsrAcc
  | lsrZp (b : Byte)
  | lsrZpx (b : Byte)
  | lsrAbs (w : Word)
  | lsrAbx (w : Word)
  -- NOP (R230)
  | nop
  -- ORA (R134)
  | oraImm (v : Byte)
  | oraZp (b : Byte)
  | oraZpx (b : Byte)
  | oraAbs (w : Word)
  | oraAbx (w : Word)
  | oraAby (w : Word)
  | oraIzx (b : Byte)
  | oraIzy (b : Byte)
  -- PHA (R182)
  | pha
  -- PHP (R184)
  | php
  -- PLA (R183)
  | pla
  -- PLP (R185)
  | plp
  -- ROL (R152)
  | rolAcc
  | rolZp (b : Byte)
  | rolZpx (b : Byte)
  | rolAbs (w : Word)
  | rolAbx (w : Word)
  -- ROR (R153)
  | rorAcc
  | rorZp (b : Byte)
  | rorZpx (b : Byte)
  | rorAbs (w : Word)
  | rorAbx (w : Word)
  -- RTI (R190)
  | rti
  -- RTS (R189)
  | rts
  -- SBC (R132)
  | sbcImm (v : Byte)
  | sbcZp (b : Byte)
  | sbcZpx (b : Byte)
  | sbcAbs (w : Word)
  | sbcAbx (w : Word)
  | sbcAby (w : Word)
  | sbcIzx (b : Byte)
  | sbcIzy (b : Byte)
  -- SEC (R171)
  | sec
  -- SED (R175)
  | sed
  -- SEI (R173)
  | sei
  -- STA (R203)
  | staZp (b : Byte)
  | staZpx (b : Byte)
  | staAbs (w : Word)
  | staAbx (w : Word)
  | staAby (w : Word)
  | staIzx (b : Byte)
  | staIzy (b : Byte)
  -- STX (R204)
  | stxZp (b : Byte)
  | stxZpy (b : Byte)
  | stxAbs (w : Word)
  -- STY (R205)
  | styZp (b : Byte)
  | styZpx (b : Byte)
  | styAbs (w : Word)
  -- TAX (R206)
  | tax
  -- TAY (R207)
  | tay
  -- TSX (R187)
  | tsx
  -- TXA (R208)
  | txa
  -- TXS (R186)
  | txs
  -- TYA (R209)
  | tya
  -- ILLEGAL: a byte with no table entry (R76); all 105 rows of opcode_table.json with that mnemonic
  | illegal (op : Byte)
  deriving DecidableEq, Repr

end Sys2Proof
end

