-- ==== Sys2Proof/WellFormed.lean ====
section
/-! DEFINITION. Which instructions as syntax stand for bytes of the machine. Operand widths are carried by the types,
so every documented instruction is well formed at every operand value (30_encoding.md R71: every operand bit is used);
`illegal op` is well formed only for a byte without an entry (30 R76). -/

namespace Sys2Proof

/-- The check: `illegal op` only for the 105 bytes of 30 R76. -/
def wellFormed : Instr → Bool
  | .adcImm _ => true
  | .adcZp _ => true
  | .adcZpx _ => true
  | .adcAbs _ => true
  | .adcAbx _ => true
  | .adcAby _ => true
  | .adcIzx _ => true
  | .adcIzy _ => true
  | .andImm _ => true
  | .andZp _ => true
  | .andZpx _ => true
  | .andAbs _ => true
  | .andAbx _ => true
  | .andAby _ => true
  | .andIzx _ => true
  | .andIzy _ => true
  | .aslAcc => true
  | .aslZp _ => true
  | .aslZpx _ => true
  | .aslAbs _ => true
  | .aslAbx _ => true
  | .bcc _ => true
  | .bcs _ => true
  | .beq _ => true
  | .bitZp _ => true
  | .bitAbs _ => true
  | .bmi _ => true
  | .bne _ => true
  | .bpl _ => true
  | .bvc _ => true
  | .bvs _ => true
  | .clc => true
  | .cld => true
  | .cli => true
  | .clv => true
  | .cmpImm _ => true
  | .cmpZp _ => true
  | .cmpZpx _ => true
  | .cmpAbs _ => true
  | .cmpAbx _ => true
  | .cmpAby _ => true
  | .cmpIzx _ => true
  | .cmpIzy _ => true
  | .cpxImm _ => true
  | .cpxZp _ => true
  | .cpxAbs _ => true
  | .cpyImm _ => true
  | .cpyZp _ => true
  | .cpyAbs _ => true
  | .decZp _ => true
  | .decZpx _ => true
  | .decAbs _ => true
  | .decAbx _ => true
  | .dex => true
  | .dey => true
  | .eorImm _ => true
  | .eorZp _ => true
  | .eorZpx _ => true
  | .eorAbs _ => true
  | .eorAbx _ => true
  | .eorAby _ => true
  | .eorIzx _ => true
  | .eorIzy _ => true
  | .hlt => true
  | .incZp _ => true
  | .incZpx _ => true
  | .incAbs _ => true
  | .incAbx _ => true
  | .inx => true
  | .iny => true
  | .jmpAbs _ => true
  | .jmpInd _ => true
  | .jsr _ => true
  | .ldaImm _ => true
  | .ldaZp _ => true
  | .ldaZpx _ => true
  | .ldaAbs _ => true
  | .ldaAbx _ => true
  | .ldaAby _ => true
  | .ldaIzx _ => true
  | .ldaIzy _ => true
  | .ldxImm _ => true
  | .ldxZp _ => true
  | .ldxZpy _ => true
  | .ldxAbs _ => true
  | .ldxAby _ => true
  | .ldyImm _ => true
  | .ldyZp _ => true
  | .ldyZpx _ => true
  | .ldyAbs _ => true
  | .ldyAbx _ => true
  | .lsrAcc => true
  | .lsrZp _ => true
  | .lsrZpx _ => true
  | .lsrAbs _ => true
  | .lsrAbx _ => true
  | .nop => true
  | .oraImm _ => true
  | .oraZp _ => true
  | .oraZpx _ => true
  | .oraAbs _ => true
  | .oraAbx _ => true
  | .oraAby _ => true
  | .oraIzx _ => true
  | .oraIzy _ => true
  | .pha => true
  | .php => true
  | .pla => true
  | .plp => true
  | .rolAcc => true
  | .rolZp _ => true
  | .rolZpx _ => true
  | .rolAbs _ => true
  | .rolAbx _ => true
  | .rorAcc => true
  | .rorZp _ => true
  | .rorZpx _ => true
  | .rorAbs _ => true
  | .rorAbx _ => true
  | .rti => true
  | .rts => true
  | .sbcImm _ => true
  | .sbcZp _ => true
  | .sbcZpx _ => true
  | .sbcAbs _ => true
  | .sbcAbx _ => true
  | .sbcAby _ => true
  | .sbcIzx _ => true
  | .sbcIzy _ => true
  | .sec => true
  | .sed => true
  | .sei => true
  | .staZp _ => true
  | .staZpx _ => true
  | .staAbs _ => true
  | .staAbx _ => true
  | .staAby _ => true
  | .staIzx _ => true
  | .staIzy _ => true
  | .stxZp _ => true
  | .stxZpy _ => true
  | .stxAbs _ => true
  | .styZp _ => true
  | .styZpx _ => true
  | .styAbs _ => true
  | .tax => true
  | .tay => true
  | .tsx => true
  | .txa => true
  | .txs => true
  | .tya => true
  | .illegal op => Machine.isUndocumented op

end Sys2Proof
end

