-- ==== Sys2Proof/Decode.lean ====
section
/-! DEFINITION. Decoding, written from the grid of 30_encoding.md R75, and encoding, written from the table of
30 R74. -/

namespace Sys2Proof

/-- What an opcode byte selects: an instruction of layout L1, L2 or L3 (30 R71), the latter two still waiting for
their operand byte or 16-bit operand. -/
inductive Form where
  | one (i : Instr)
  | two (mk : Byte → Instr)
  | three (mk : Word → Instr)

/-- Why a list of bytes holds no whole instruction: it is empty, or it ends before the operand of `op`. -/
inductive DecodeError where
  | noOpcode
  | noOperand (op : Byte)
  deriving DecidableEq, Repr

/-- Row 0x of the grid (30 R75). -/
def row0 : List (Option Form) :=
  [some (.one .hlt), some (.two .oraIzx), none, none,
   none, some (.two .oraZp), some (.two .aslZp), none,
   some (.one .php), some (.two .oraImm), some (.one .aslAcc), none,
   none, some (.three .oraAbs), some (.three .aslAbs), none]

/-- Row 1x of the grid (30 R75). -/
def row1 : List (Option Form) :=
  [some (.two .bpl), some (.two .oraIzy), none, none,
   none, some (.two .oraZpx), some (.two .aslZpx), none,
   some (.one .clc), some (.three .oraAby), none, none,
   none, some (.three .oraAbx), some (.three .aslAbx), none]

/-- Row 2x of the grid (30 R75). -/
def row2 : List (Option Form) :=
  [some (.three .jsr), some (.two .andIzx), none, none,
   some (.two .bitZp), some (.two .andZp), some (.two .rolZp), none,
   some (.one .plp), some (.two .andImm), some (.one .rolAcc), none,
   some (.three .bitAbs), some (.three .andAbs), some (.three .rolAbs), none]

/-- Row 3x of the grid (30 R75). -/
def row3 : List (Option Form) :=
  [some (.two .bmi), some (.two .andIzy), none, none,
   none, some (.two .andZpx), some (.two .rolZpx), none,
   some (.one .sec), some (.three .andAby), none, none,
   none, some (.three .andAbx), some (.three .rolAbx), none]

/-- Row 4x of the grid (30 R75). -/
def row4 : List (Option Form) :=
  [some (.one .rti), some (.two .eorIzx), none, none,
   none, some (.two .eorZp), some (.two .lsrZp), none,
   some (.one .pha), some (.two .eorImm), some (.one .lsrAcc), none,
   some (.three .jmpAbs), some (.three .eorAbs), some (.three .lsrAbs), none]

/-- Row 5x of the grid (30 R75). -/
def row5 : List (Option Form) :=
  [some (.two .bvc), some (.two .eorIzy), none, none,
   none, some (.two .eorZpx), some (.two .lsrZpx), none,
   some (.one .cli), some (.three .eorAby), none, none,
   none, some (.three .eorAbx), some (.three .lsrAbx), none]

/-- Row 6x of the grid (30 R75). -/
def row6 : List (Option Form) :=
  [some (.one .rts), some (.two .adcIzx), none, none,
   none, some (.two .adcZp), some (.two .rorZp), none,
   some (.one .pla), some (.two .adcImm), some (.one .rorAcc), none,
   some (.three .jmpInd), some (.three .adcAbs), some (.three .rorAbs), none]

/-- Row 7x of the grid (30 R75). -/
def row7 : List (Option Form) :=
  [some (.two .bvs), some (.two .adcIzy), none, none,
   none, some (.two .adcZpx), some (.two .rorZpx), none,
   some (.one .sei), some (.three .adcAby), none, none,
   none, some (.three .adcAbx), some (.three .rorAbx), none]

/-- Row 8x of the grid (30 R75). -/
def row8 : List (Option Form) :=
  [none, some (.two .staIzx), none, none,
   some (.two .styZp), some (.two .staZp), some (.two .stxZp), none,
   some (.one .dey), none, some (.one .txa), none,
   some (.three .styAbs), some (.three .staAbs), some (.three .stxAbs), none]

/-- Row 9x of the grid (30 R75). -/
def row9 : List (Option Form) :=
  [some (.two .bcc), some (.two .staIzy), none, none,
   some (.two .styZpx), some (.two .staZpx), some (.two .stxZpy), none,
   some (.one .tya), some (.three .staAby), some (.one .txs), none,
   none, some (.three .staAbx), none, none]

/-- Row Ax of the grid (30 R75). -/
def rowA : List (Option Form) :=
  [some (.two .ldyImm), some (.two .ldaIzx), some (.two .ldxImm), none,
   some (.two .ldyZp), some (.two .ldaZp), some (.two .ldxZp), none,
   some (.one .tay), some (.two .ldaImm), some (.one .tax), none,
   some (.three .ldyAbs), some (.three .ldaAbs), some (.three .ldxAbs), none]

/-- Row Bx of the grid (30 R75). -/
def rowB : List (Option Form) :=
  [some (.two .bcs), some (.two .ldaIzy), none, none,
   some (.two .ldyZpx), some (.two .ldaZpx), some (.two .ldxZpy), none,
   some (.one .clv), some (.three .ldaAby), some (.one .tsx), none,
   some (.three .ldyAbx), some (.three .ldaAbx), some (.three .ldxAby), none]

/-- Row Cx of the grid (30 R75). -/
def rowC : List (Option Form) :=
  [some (.two .cpyImm), some (.two .cmpIzx), none, none,
   some (.two .cpyZp), some (.two .cmpZp), some (.two .decZp), none,
   some (.one .iny), some (.two .cmpImm), some (.one .dex), none,
   some (.three .cpyAbs), some (.three .cmpAbs), some (.three .decAbs), none]

/-- Row Dx of the grid (30 R75). -/
def rowD : List (Option Form) :=
  [some (.two .bne), some (.two .cmpIzy), none, none,
   none, some (.two .cmpZpx), some (.two .decZpx), none,
   some (.one .cld), some (.three .cmpAby), none, none,
   none, some (.three .cmpAbx), some (.three .decAbx), none]

/-- Row Ex of the grid (30 R75). -/
def rowE : List (Option Form) :=
  [some (.two .cpxImm), some (.two .sbcIzx), none, none,
   some (.two .cpxZp), some (.two .sbcZp), some (.two .incZp), none,
   some (.one .inx), some (.two .sbcImm), some (.one .nop), none,
   some (.three .cpxAbs), some (.three .sbcAbs), some (.three .incAbs), none]

/-- Row Fx of the grid (30 R75). -/
def rowF : List (Option Form) :=
  [some (.two .beq), some (.two .sbcIzy), none, none,
   none, some (.two .sbcZpx), some (.two .incZpx), none,
   some (.one .sed), some (.three .sbcAby), none, none,
   none, some (.three .sbcAbx), some (.three .incAbx), none]

/-- The opcode map, row = high nibble, column = low nibble; `none` is a byte with no table entry (30 R75). -/
def grid : List (List (Option Form)) :=
  [row0, row1, row2, row3, row4, row5, row6, row7, row8, row9, rowA, rowB, rowC, rowD, rowE, rowF]

/-- `Decode(b : Byte)` (30 R79): the entry of the opcode map, or `none` for NoEntry. Total, and reading nothing but the
byte (30 R73). -/
def lookup (op : Byte) : Option Form := (grid.getD (op.toNat / 16) []).getD (op.toNat % 16) none

/-- The instruction at the head of a list of bytes, and the bytes after it. A byte with no entry is `illegal` and takes
no operand byte (30 R76). -/
def decode : List Byte → Except DecodeError (Instr × List Byte)
  | [] => .error .noOpcode
  | op :: rest =>
    match lookup op with
    | none => .ok (.illegal op, rest)
    | some (.one i) => .ok (i, rest)
    | some (.two mk) =>
      match rest with
      | b1 :: rest => .ok (mk b1, rest)
      | [] => .error (.noOperand op)
    | some (.three mk) =>
      match rest with
      | b1 :: b2 :: rest => .ok (mk (Machine.wordOf b2 b1), rest)
      | _ => .error (.noOperand op)

/-- The opcode byte of an instruction (30 R74). -/
def opcodeOf : Instr → Byte
  | .adcImm _ => 0x69
  | .adcZp _ => 0x65
  | .adcZpx _ => 0x75
  | .adcAbs _ => 0x6D
  | .adcAbx _ => 0x7D
  | .adcAby _ => 0x79
  | .adcIzx _ => 0x61
  | .adcIzy _ => 0x71
  | .andImm _ => 0x29
  | .andZp _ => 0x25
  | .andZpx _ => 0x35
  | .andAbs _ => 0x2D
  | .andAbx _ => 0x3D
  | .andAby _ => 0x39
  | .andIzx _ => 0x21
  | .andIzy _ => 0x31
  | .aslAcc => 0x0A
  | .aslZp _ => 0x06
  | .aslZpx _ => 0x16
  | .aslAbs _ => 0x0E
  | .aslAbx _ => 0x1E
  | .bcc _ => 0x90
  | .bcs _ => 0xB0
  | .beq _ => 0xF0
  | .bitZp _ => 0x24
  | .bitAbs _ => 0x2C
  | .bmi _ => 0x30
  | .bne _ => 0xD0
  | .bpl _ => 0x10
  | .bvc _ => 0x50
  | .bvs _ => 0x70
  | .clc => 0x18
  | .cld => 0xD8
  | .cli => 0x58
  | .clv => 0xB8
  | .cmpImm _ => 0xC9
  | .cmpZp _ => 0xC5
  | .cmpZpx _ => 0xD5
  | .cmpAbs _ => 0xCD
  | .cmpAbx _ => 0xDD
  | .cmpAby _ => 0xD9
  | .cmpIzx _ => 0xC1
  | .cmpIzy _ => 0xD1
  | .cpxImm _ => 0xE0
  | .cpxZp _ => 0xE4
  | .cpxAbs _ => 0xEC
  | .cpyImm _ => 0xC0
  | .cpyZp _ => 0xC4
  | .cpyAbs _ => 0xCC
  | .decZp _ => 0xC6
  | .decZpx _ => 0xD6
  | .decAbs _ => 0xCE
  | .decAbx _ => 0xDE
  | .dex => 0xCA
  | .dey => 0x88
  | .eorImm _ => 0x49
  | .eorZp _ => 0x45
  | .eorZpx _ => 0x55
  | .eorAbs _ => 0x4D
  | .eorAbx _ => 0x5D
  | .eorAby _ => 0x59
  | .eorIzx _ => 0x41
  | .eorIzy _ => 0x51
  | .hlt => 0x00
  | .incZp _ => 0xE6
  | .incZpx _ => 0xF6
  | .incAbs _ => 0xEE
  | .incAbx _ => 0xFE
  | .inx => 0xE8
  | .iny => 0xC8
  | .jmpAbs _ => 0x4C
  | .jmpInd _ => 0x6C
  | .jsr _ => 0x20
  | .ldaImm _ => 0xA9
  | .ldaZp _ => 0xA5
  | .ldaZpx _ => 0xB5
  | .ldaAbs _ => 0xAD
  | .ldaAbx _ => 0xBD
  | .ldaAby _ => 0xB9
  | .ldaIzx _ => 0xA1
  | .ldaIzy _ => 0xB1
  | .ldxImm _ => 0xA2
  | .ldxZp _ => 0xA6
  | .ldxZpy _ => 0xB6
  | .ldxAbs _ => 0xAE
  | .ldxAby _ => 0xBE
  | .ldyImm _ => 0xA0
  | .ldyZp _ => 0xA4
  | .ldyZpx _ => 0xB4
  | .ldyAbs _ => 0xAC
  | .ldyAbx _ => 0xBC
  | .lsrAcc => 0x4A
  | .lsrZp _ => 0x46
  | .lsrZpx _ => 0x56
  | .lsrAbs _ => 0x4E
  | .lsrAbx _ => 0x5E
  | .nop => 0xEA
  | .oraImm _ => 0x09
  | .oraZp _ => 0x05
  | .oraZpx _ => 0x15
  | .oraAbs _ => 0x0D
  | .oraAbx _ => 0x1D
  | .oraAby _ => 0x19
  | .oraIzx _ => 0x01
  | .oraIzy _ => 0x11
  | .pha => 0x48
  | .php => 0x08
  | .pla => 0x68
  | .plp => 0x28
  | .rolAcc => 0x2A
  | .rolZp _ => 0x26
  | .rolZpx _ => 0x36
  | .rolAbs _ => 0x2E
  | .rolAbx _ => 0x3E
  | .rorAcc => 0x6A
  | .rorZp _ => 0x66
  | .rorZpx _ => 0x76
  | .rorAbs _ => 0x6E
  | .rorAbx _ => 0x7E
  | .rti => 0x40
  | .rts => 0x60
  | .sbcImm _ => 0xE9
  | .sbcZp _ => 0xE5
  | .sbcZpx _ => 0xF5
  | .sbcAbs _ => 0xED
  | .sbcAbx _ => 0xFD
  | .sbcAby _ => 0xF9
  | .sbcIzx _ => 0xE1
  | .sbcIzy _ => 0xF1
  | .sec => 0x38
  | .sed => 0xF8
  | .sei => 0x78
  | .staZp _ => 0x85
  | .staZpx _ => 0x95
  | .staAbs _ => 0x8D
  | .staAbx _ => 0x9D
  | .staAby _ => 0x99
  | .staIzx _ => 0x81
  | .staIzy _ => 0x91
  | .stxZp _ => 0x86
  | .stxZpy _ => 0x96
  | .stxAbs _ => 0x8E
  | .styZp _ => 0x84
  | .styZpx _ => 0x94
  | .styAbs _ => 0x8C
  | .tax => 0xAA
  | .tay => 0xA8
  | .tsx => 0xBA
  | .txa => 0x8A
  | .txs => 0x9A
  | .tya => 0x98
  | .illegal op => op

/-- The operand bytes of an instruction, low byte first (30 R71, R72). -/
def operandBytes : Instr → List Byte
  | .adcImm v => [v]
  | .adcZp b => [b]
  | .adcZpx b => [b]
  | .adcAbs w => [Machine.lo8 w, Machine.hi8 w]
  | .adcAbx w => [Machine.lo8 w, Machine.hi8 w]
  | .adcAby w => [Machine.lo8 w, Machine.hi8 w]
  | .adcIzx b => [b]
  | .adcIzy b => [b]
  | .andImm v => [v]
  | .andZp b => [b]
  | .andZpx b => [b]
  | .andAbs w => [Machine.lo8 w, Machine.hi8 w]
  | .andAbx w => [Machine.lo8 w, Machine.hi8 w]
  | .andAby w => [Machine.lo8 w, Machine.hi8 w]
  | .andIzx b => [b]
  | .andIzy b => [b]
  | .aslAcc => []
  | .aslZp b => [b]
  | .aslZpx b => [b]
  | .aslAbs w => [Machine.lo8 w, Machine.hi8 w]
  | .aslAbx w => [Machine.lo8 w, Machine.hi8 w]
  | .bcc off => [off]
  | .bcs off => [off]
  | .beq off => [off]
  | .bitZp b => [b]
  | .bitAbs w => [Machine.lo8 w, Machine.hi8 w]
  | .bmi off => [off]
  | .bne off => [off]
  | .bpl off => [off]
  | .bvc off => [off]
  | .bvs off => [off]
  | .clc => []
  | .cld => []
  | .cli => []
  | .clv => []
  | .cmpImm v => [v]
  | .cmpZp b => [b]
  | .cmpZpx b => [b]
  | .cmpAbs w => [Machine.lo8 w, Machine.hi8 w]
  | .cmpAbx w => [Machine.lo8 w, Machine.hi8 w]
  | .cmpAby w => [Machine.lo8 w, Machine.hi8 w]
  | .cmpIzx b => [b]
  | .cmpIzy b => [b]
  | .cpxImm v => [v]
  | .cpxZp b => [b]
  | .cpxAbs w => [Machine.lo8 w, Machine.hi8 w]
  | .cpyImm v => [v]
  | .cpyZp b => [b]
  | .cpyAbs w => [Machine.lo8 w, Machine.hi8 w]
  | .decZp b => [b]
  | .decZpx b => [b]
  | .decAbs w => [Machine.lo8 w, Machine.hi8 w]
  | .decAbx w => [Machine.lo8 w, Machine.hi8 w]
  | .dex => []
  | .dey => []
  | .eorImm v => [v]
  | .eorZp b => [b]
  | .eorZpx b => [b]
  | .eorAbs w => [Machine.lo8 w, Machine.hi8 w]
  | .eorAbx w => [Machine.lo8 w, Machine.hi8 w]
  | .eorAby w => [Machine.lo8 w, Machine.hi8 w]
  | .eorIzx b => [b]
  | .eorIzy b => [b]
  | .hlt => []
  | .incZp b => [b]
  | .incZpx b => [b]
  | .incAbs w => [Machine.lo8 w, Machine.hi8 w]
  | .incAbx w => [Machine.lo8 w, Machine.hi8 w]
  | .inx => []
  | .iny => []
  | .jmpAbs w => [Machine.lo8 w, Machine.hi8 w]
  | .jmpInd w => [Machine.lo8 w, Machine.hi8 w]
  | .jsr w => [Machine.lo8 w, Machine.hi8 w]
  | .ldaImm v => [v]
  | .ldaZp b => [b]
  | .ldaZpx b => [b]
  | .ldaAbs w => [Machine.lo8 w, Machine.hi8 w]
  | .ldaAbx w => [Machine.lo8 w, Machine.hi8 w]
  | .ldaAby w => [Machine.lo8 w, Machine.hi8 w]
  | .ldaIzx b => [b]
  | .ldaIzy b => [b]
  | .ldxImm v => [v]
  | .ldxZp b => [b]
  | .ldxZpy b => [b]
  | .ldxAbs w => [Machine.lo8 w, Machine.hi8 w]
  | .ldxAby w => [Machine.lo8 w, Machine.hi8 w]
  | .ldyImm v => [v]
  | .ldyZp b => [b]
  | .ldyZpx b => [b]
  | .ldyAbs w => [Machine.lo8 w, Machine.hi8 w]
  | .ldyAbx w => [Machine.lo8 w, Machine.hi8 w]
  | .lsrAcc => []
  | .lsrZp b => [b]
  | .lsrZpx b => [b]
  | .lsrAbs w => [Machine.lo8 w, Machine.hi8 w]
  | .lsrAbx w => [Machine.lo8 w, Machine.hi8 w]
  | .nop => []
  | .oraImm v => [v]
  | .oraZp b => [b]
  | .oraZpx b => [b]
  | .oraAbs w => [Machine.lo8 w, Machine.hi8 w]
  | .oraAbx w => [Machine.lo8 w, Machine.hi8 w]
  | .oraAby w => [Machine.lo8 w, Machine.hi8 w]
  | .oraIzx b => [b]
  | .oraIzy b => [b]
  | .pha => []
  | .php => []
  | .pla => []
  | .plp => []
  | .rolAcc => []
  | .rolZp b => [b]
  | .rolZpx b => [b]
  | .rolAbs w => [Machine.lo8 w, Machine.hi8 w]
  | .rolAbx w => [Machine.lo8 w, Machine.hi8 w]
  | .rorAcc => []
  | .rorZp b => [b]
  | .rorZpx b => [b]
  | .rorAbs w => [Machine.lo8 w, Machine.hi8 w]
  | .rorAbx w => [Machine.lo8 w, Machine.hi8 w]
  | .rti => []
  | .rts => []
  | .sbcImm v => [v]
  | .sbcZp b => [b]
  | .sbcZpx b => [b]
  | .sbcAbs w => [Machine.lo8 w, Machine.hi8 w]
  | .sbcAbx w => [Machine.lo8 w, Machine.hi8 w]
  | .sbcAby w => [Machine.lo8 w, Machine.hi8 w]
  | .sbcIzx b => [b]
  | .sbcIzy b => [b]
  | .sec => []
  | .sed => []
  | .sei => []
  | .staZp b => [b]
  | .staZpx b => [b]
  | .staAbs w => [Machine.lo8 w, Machine.hi8 w]
  | .staAbx w => [Machine.lo8 w, Machine.hi8 w]
  | .staAby w => [Machine.lo8 w, Machine.hi8 w]
  | .staIzx b => [b]
  | .staIzy b => [b]
  | .stxZp b => [b]
  | .stxZpy b => [b]
  | .stxAbs w => [Machine.lo8 w, Machine.hi8 w]
  | .styZp b => [b]
  | .styZpx b => [b]
  | .styAbs w => [Machine.lo8 w, Machine.hi8 w]
  | .tax => []
  | .tay => []
  | .tsx => []
  | .txa => []
  | .txs => []
  | .tya => []
  | .illegal _ => []

/-- The bytes of an instruction, opcode first (30 R70). -/
def encode (i : Instr) : List Byte := opcodeOf i :: operandBytes i

/-- The number of operand bytes of an addressing mode (30 R71). -/
def operandCount : Mode → Nat
  | .imp => 0 | .acc => 0
  | .imm => 1 | .zp => 1 | .zpx => 1 | .zpy => 1 | .izx => 1 | .izy => 1 | .rel => 1
  | .abs => 2 | .abx => 2 | .aby => 2 | .ind => 2

/-- The addressing mode of an instruction; a byte with no entry has none (30 R74, R76). -/
def modeOf : Instr → Option Mode
  | .adcImm _ => some .imm
  | .adcZp _ => some .zp
  | .adcZpx _ => some .zpx
  | .adcAbs _ => some .abs
  | .adcAbx _ => some .abx
  | .adcAby _ => some .aby
  | .adcIzx _ => some .izx
  | .adcIzy _ => some .izy
  | .andImm _ => some .imm
  | .andZp _ => some .zp
  | .andZpx _ => some .zpx
  | .andAbs _ => some .abs
  | .andAbx _ => some .abx
  | .andAby _ => some .aby
  | .andIzx _ => some .izx
  | .andIzy _ => some .izy
  | .aslAcc => some .acc
  | .aslZp _ => some .zp
  | .aslZpx _ => some .zpx
  | .aslAbs _ => some .abs
  | .aslAbx _ => some .abx
  | .bcc _ => some .rel
  | .bcs _ => some .rel
  | .beq _ => some .rel
  | .bitZp _ => some .zp
  | .bitAbs _ => some .abs
  | .bmi _ => some .rel
  | .bne _ => some .rel
  | .bpl _ => some .rel
  | .bvc _ => some .rel
  | .bvs _ => some .rel
  | .clc => some .imp
  | .cld => some .imp
  | .cli => some .imp
  | .clv => some .imp
  | .cmpImm _ => some .imm
  | .cmpZp _ => some .zp
  | .cmpZpx _ => some .zpx
  | .cmpAbs _ => some .abs
  | .cmpAbx _ => some .abx
  | .cmpAby _ => some .aby
  | .cmpIzx _ => some .izx
  | .cmpIzy _ => some .izy
  | .cpxImm _ => some .imm
  | .cpxZp _ => some .zp
  | .cpxAbs _ => some .abs
  | .cpyImm _ => some .imm
  | .cpyZp _ => some .zp
  | .cpyAbs _ => some .abs
  | .decZp _ => some .zp
  | .decZpx _ => some .zpx
  | .decAbs _ => some .abs
  | .decAbx _ => some .abx
  | .dex => some .imp
  | .dey => some .imp
  | .eorImm _ => some .imm
  | .eorZp _ => some .zp
  | .eorZpx _ => some .zpx
  | .eorAbs _ => some .abs
  | .eorAbx _ => some .abx
  | .eorAby _ => some .aby
  | .eorIzx _ => some .izx
  | .eorIzy _ => some .izy
  | .hlt => some .imp
  | .incZp _ => some .zp
  | .incZpx _ => some .zpx
  | .incAbs _ => some .abs
  | .incAbx _ => some .abx
  | .inx => some .imp
  | .iny => some .imp
  | .jmpAbs _ => some .abs
  | .jmpInd _ => some .ind
  | .jsr _ => some .abs
  | .ldaImm _ => some .imm
  | .ldaZp _ => some .zp
  | .ldaZpx _ => some .zpx
  | .ldaAbs _ => some .abs
  | .ldaAbx _ => some .abx
  | .ldaAby _ => some .aby
  | .ldaIzx _ => some .izx
  | .ldaIzy _ => some .izy
  | .ldxImm _ => some .imm
  | .ldxZp _ => some .zp
  | .ldxZpy _ => some .zpy
  | .ldxAbs _ => some .abs
  | .ldxAby _ => some .aby
  | .ldyImm _ => some .imm
  | .ldyZp _ => some .zp
  | .ldyZpx _ => some .zpx
  | .ldyAbs _ => some .abs
  | .ldyAbx _ => some .abx
  | .lsrAcc => some .acc
  | .lsrZp _ => some .zp
  | .lsrZpx _ => some .zpx
  | .lsrAbs _ => some .abs
  | .lsrAbx _ => some .abx
  | .nop => some .imp
  | .oraImm _ => some .imm
  | .oraZp _ => some .zp
  | .oraZpx _ => some .zpx
  | .oraAbs _ => some .abs
  | .oraAbx _ => some .abx
  | .oraAby _ => some .aby
  | .oraIzx _ => some .izx
  | .oraIzy _ => some .izy
  | .pha => some .imp
  | .php => some .imp
  | .pla => some .imp
  | .plp => some .imp
  | .rolAcc => some .acc
  | .rolZp _ => some .zp
  | .rolZpx _ => some .zpx
  | .rolAbs _ => some .abs
  | .rolAbx _ => some .abx
  | .rorAcc => some .acc
  | .rorZp _ => some .zp
  | .rorZpx _ => some .zpx
  | .rorAbs _ => some .abs
  | .rorAbx _ => some .abx
  | .rti => some .imp
  | .rts => some .imp
  | .sbcImm _ => some .imm
  | .sbcZp _ => some .zp
  | .sbcZpx _ => some .zpx
  | .sbcAbs _ => some .abs
  | .sbcAbx _ => some .abx
  | .sbcAby _ => some .aby
  | .sbcIzx _ => some .izx
  | .sbcIzy _ => some .izy
  | .sec => some .imp
  | .sed => some .imp
  | .sei => some .imp
  | .staZp _ => some .zp
  | .staZpx _ => some .zpx
  | .staAbs _ => some .abs
  | .staAbx _ => some .abx
  | .staAby _ => some .aby
  | .staIzx _ => some .izx
  | .staIzy _ => some .izy
  | .stxZp _ => some .zp
  | .stxZpy _ => some .zpy
  | .stxAbs _ => some .abs
  | .styZp _ => some .zp
  | .styZpx _ => some .zpx
  | .styAbs _ => some .abs
  | .tax => some .imp
  | .tay => some .imp
  | .tsx => some .imp
  | .txa => some .imp
  | .txs => some .imp
  | .tya => some .imp
  | .illegal _ => none

/-- The mnemonic of an instruction; a byte with no entry has none (30 R74, R76). -/
def mnemonicOf : Instr → Option Mnemonic
  | .adcImm _ => some .adc
  | .adcZp _ => some .adc
  | .adcZpx _ => some .adc
  | .adcAbs _ => some .adc
  | .adcAbx _ => some .adc
  | .adcAby _ => some .adc
  | .adcIzx _ => some .adc
  | .adcIzy _ => some .adc
  | .andImm _ => some .and
  | .andZp _ => some .and
  | .andZpx _ => some .and
  | .andAbs _ => some .and
  | .andAbx _ => some .and
  | .andAby _ => some .and
  | .andIzx _ => some .and
  | .andIzy _ => some .and
  | .aslAcc => some .asl
  | .aslZp _ => some .asl
  | .aslZpx _ => some .asl
  | .aslAbs _ => some .asl
  | .aslAbx _ => some .asl
  | .bcc _ => some .bcc
  | .bcs _ => some .bcs
  | .beq _ => some .beq
  | .bitZp _ => some .bit
  | .bitAbs _ => some .bit
  | .bmi _ => some .bmi
  | .bne _ => some .bne
  | .bpl _ => some .bpl
  | .bvc _ => some .bvc
  | .bvs _ => some .bvs
  | .clc => some .clc
  | .cld => some .cld
  | .cli => some .cli
  | .clv => some .clv
  | .cmpImm _ => some .cmp
  | .cmpZp _ => some .cmp
  | .cmpZpx _ => some .cmp
  | .cmpAbs _ => some .cmp
  | .cmpAbx _ => some .cmp
  | .cmpAby _ => some .cmp
  | .cmpIzx _ => some .cmp
  | .cmpIzy _ => some .cmp
  | .cpxImm _ => some .cpx
  | .cpxZp _ => some .cpx
  | .cpxAbs _ => some .cpx
  | .cpyImm _ => some .cpy
  | .cpyZp _ => some .cpy
  | .cpyAbs _ => some .cpy
  | .decZp _ => some .dec
  | .decZpx _ => some .dec
  | .decAbs _ => some .dec
  | .decAbx _ => some .dec
  | .dex => some .dex
  | .dey => some .dey
  | .eorImm _ => some .eor
  | .eorZp _ => some .eor
  | .eorZpx _ => some .eor
  | .eorAbs _ => some .eor
  | .eorAbx _ => some .eor
  | .eorAby _ => some .eor
  | .eorIzx _ => some .eor
  | .eorIzy _ => some .eor
  | .hlt => some .hlt
  | .incZp _ => some .inc
  | .incZpx _ => some .inc
  | .incAbs _ => some .inc
  | .incAbx _ => some .inc
  | .inx => some .inx
  | .iny => some .iny
  | .jmpAbs _ => some .jmp
  | .jmpInd _ => some .jmp
  | .jsr _ => some .jsr
  | .ldaImm _ => some .lda
  | .ldaZp _ => some .lda
  | .ldaZpx _ => some .lda
  | .ldaAbs _ => some .lda
  | .ldaAbx _ => some .lda
  | .ldaAby _ => some .lda
  | .ldaIzx _ => some .lda
  | .ldaIzy _ => some .lda
  | .ldxImm _ => some .ldx
  | .ldxZp _ => some .ldx
  | .ldxZpy _ => some .ldx
  | .ldxAbs _ => some .ldx
  | .ldxAby _ => some .ldx
  | .ldyImm _ => some .ldy
  | .ldyZp _ => some .ldy
  | .ldyZpx _ => some .ldy
  | .ldyAbs _ => some .ldy
  | .ldyAbx _ => some .ldy
  | .lsrAcc => some .lsr
  | .lsrZp _ => some .lsr
  | .lsrZpx _ => some .lsr
  | .lsrAbs _ => some .lsr
  | .lsrAbx _ => some .lsr
  | .nop => some .nop
  | .oraImm _ => some .ora
  | .oraZp _ => some .ora
  | .oraZpx _ => some .ora
  | .oraAbs _ => some .ora
  | .oraAbx _ => some .ora
  | .oraAby _ => some .ora
  | .oraIzx _ => some .ora
  | .oraIzy _ => some .ora
  | .pha => some .pha
  | .php => some .php
  | .pla => some .pla
  | .plp => some .plp
  | .rolAcc => some .rol
  | .rolZp _ => some .rol
  | .rolZpx _ => some .rol
  | .rolAbs _ => some .rol
  | .rolAbx _ => some .rol
  | .rorAcc => some .ror
  | .rorZp _ => some .ror
  | .rorZpx _ => some .ror
  | .rorAbs _ => some .ror
  | .rorAbx _ => some .ror
  | .rti => some .rti
  | .rts => some .rts
  | .sbcImm _ => some .sbc
  | .sbcZp _ => some .sbc
  | .sbcZpx _ => some .sbc
  | .sbcAbs _ => some .sbc
  | .sbcAbx _ => some .sbc
  | .sbcAby _ => some .sbc
  | .sbcIzx _ => some .sbc
  | .sbcIzy _ => some .sbc
  | .sec => some .sec
  | .sed => some .sed
  | .sei => some .sei
  | .staZp _ => some .sta
  | .staZpx _ => some .sta
  | .staAbs _ => some .sta
  | .staAbx _ => some .sta
  | .staAby _ => some .sta
  | .staIzx _ => some .sta
  | .staIzy _ => some .sta
  | .stxZp _ => some .stx
  | .stxZpy _ => some .stx
  | .stxAbs _ => some .stx
  | .styZp _ => some .sty
  | .styZpx _ => some .sty
  | .styAbs _ => some .sty
  | .tax => some .tax
  | .tay => some .tay
  | .tsx => some .tsx
  | .txa => some .txa
  | .txs => some .txs
  | .tya => some .tya
  | .illegal _ => none

/-- How many bytes the machine fetches for an instruction (30 R73); of a byte with no entry, that byte alone
(30 R76). -/
def lengthOf (i : Instr) : Nat :=
  match modeOf i with
  | some m => 1 + operandCount m
  | none => 1

/-- The three bytes, lowest address first, of an instruction numbered as spec/opcode_table.json numbers it: bits 7..0
the opcode byte, bits 15..8 the next byte, bits 23..16 the last; every bit above `nbits` is 0. Three bytes is the
longest instruction (30 R70). -/
def tableBytes (nbits w : Nat) : List Byte :=
  let v := w % 2 ^ nbits
  [BitVec.ofNat 8 v, BitVec.ofNat 8 (v / 256), BitVec.ofNat 8 (v / 65536)]

/-- The instruction the decoder reads from a word of the opcode table (see `tableBytes`). -/
def decodeTableWord (nbits w : Nat) : Option Instr :=
  match decode (tableBytes nbits w) with
  | .ok (i, _) => some i
  | .error _ => none

end Sys2Proof
end

