-- ==== Sys2Proof/Machine/Fetch.lean ====
section
/-! DEFINITION. Steps 1 to 4 of 40_execution_and_addressing.md R100: fetching an instruction's bytes and decoding
them. -/

namespace Sys2Proof.Machine

/-- Fetch the opcode, decode it, fetch its operand bytes (40 R100, R101, R103): the instruction, and the state with PC
past it. A byte with no entry fetches no operand (30 R76). -/
def fetch (s : State) : Res Instr :=
  (fetch8 s.pc s).bind fun op t =>
    match lookup op with
    | none => .done (.illegal op) t
    | some (.one i) => .done i t
    | some (.two mk) => (fetch8 s.pc t).bind fun b1 u => .done (mk b1) u
    | some (.three mk) =>
      (fetch8 s.pc t).bind fun b1 u => (fetch8 s.pc u).bind fun b2 v => .done (mk (wordOf b2 b1)) v

/-- The state after one byte of the instruction stream is fetched: PC advanced, the read noted (40 R101). -/
def State.afterByte (s : State) : State := (s.record .read s.pc (s.busByte s.pc)).setPc (s.pc + 1)

/-- Whether the bus services the fetch of the next `n` bytes. -/
def State.servicesFetch (s : State) : Nat → Bool
  | 0 => true
  | n + 1 => s.services (.read s.pc) && State.servicesFetch s.afterByte n

/-- The state after `n` bytes of the instruction stream are fetched. -/
def State.afterFetch (s : State) : Nat → State
  | 0 => s
  | n + 1 => State.afterFetch s.afterByte n

/-- The next `n` bytes of the instruction stream, as fetching them one after the other gives them. -/
def State.stream (s : State) : Nat → List Byte
  | 0 => []
  | n + 1 => s.busByte s.pc :: State.stream s.afterByte n

/-- Bytes placed where the machine fetches next, at PC and on: memory holds them, the bus serves those reads from
memory (it already does unless the host's platform deals with them otherwise), and the run state is Running, without
which there is no step (40 R120). Nothing else changes. -/
def State.placeAtPc (s : State) (l : List Byte) : State :=
  let place (acc : State × Word) (b : Byte) : State × Word :=
    ((acc.1.setMem (acc.1.mem.write acc.2 b)).setBus (acc.1.bus.openForRead acc.2), acc.2 + 1)
  ((l.foldl place (s, s.pc)).1).setRun .running

end Sys2Proof.Machine
end

