-- ==== Sys2Proof/Machine/Step.lean ====
section
/-! DEFINITION. One step (40_execution_and_addressing.md R100), and the instruction the host places for the next one. -/

namespace Sys2Proof.Machine

/-- `Step()` (40 R100): in the run state Running, fetch and decode, then execute; a refused fetch ends the step in a
Faulted state (60 R242). A Halted or Faulted state has no step (40 R120). -/
def step (s : State) : Host.Outcome State Fault Refusal :=
  match s.run with
  | .running =>
    match fetch s with
    | .done i t => exec i t
    | .raised t => .next t
  | .halted => .fault .haltedHasNoStep
  | .faulted r => .fault (.faultedHasNoStep r)

/-- The instruction whose table bits are `w` placed where the next step fetches (log entry 5). -/
def State.withFetchWord (s : State) (nbits w : Nat) : State := s.placeAtPc (tableBytes nbits w)

end Sys2Proof.Machine
end

