-- ==== Sys2Proof/Machine/Accesses.lean ====
section
/-! DEFINITION. The bus accesses of an instruction as data: its class (40_execution_and_addressing.md R117) and the
table of access sequences (40 R118). `exec` does not use them; statements compare `exec` with them. -/

namespace Sys2Proof.Machine

/-- The class of an instruction (40 R117), with what it addresses and what it writes there. -/
inductive OpClass where
  | read (src : Src) | write (m : MemMode) (reg : State → Byte) | modify (m : MemMode) (op : Byte → Byte → Altered)
  | accumulator | jump (m : MemMode) | branch (off : Byte)
  | push (v : State → Byte) | pull | call (w : Word) | ret | rti
  | implied | noEntry

/-- The class of each instruction (40 R117, R118). -/
def classOf : Instr → OpClass
  | .adcImm v => .read (.imm v)
  | .adcZp b => .read (.mem (.zp b))
  | .adcZpx b => .read (.mem (.zpx b))
  | .adcAbs w => .read (.mem (.abs w))
  | .adcAbx w => .read (.mem (.abx w))
  | .adcAby w => .read (.mem (.aby w))
  | .adcIzx b => .read (.mem (.izx b))
  | .adcIzy b => .read (.mem (.izy b))
  | .andImm v => .read (.imm v)
  | .andZp b => .read (.mem (.zp b))
  | .andZpx b => .read (.mem (.zpx b))
  | .andAbs w => .read (.mem (.abs w))
  | .andAbx w => .read (.mem (.abx w))
  | .andAby w => .read (.mem (.aby w))
  | .andIzx b => .read (.mem (.izx b))
  | .andIzy b => .read (.mem (.izy b))
  | .aslAcc => .accumulator
  | .aslZp b => .modify (.zp b) aslOp
  | .aslZpx b => .modify (.zpx b) aslOp
  | .aslAbs w => .modify (.abs w) aslOp
  | .aslAbx w => .modify (.abx w) aslOp
  | .bcc off => .branch off
  | .bcs off => .branch off
  | .beq off => .branch off
  | .bitZp b => .read (.mem (.zp b))
  | .bitAbs w => .read (.mem (.abs w))
  | .bmi off => .branch off
  | .bne off => .branch off
  | .bpl off => .branch off
  | .bvc off => .branch off
  | .bvs off => .branch off
  | .clc => .implied
  | .cld => .implied
  | .cli => .implied
  | .clv => .implied
  | .cmpImm v => .read (.imm v)
  | .cmpZp b => .read (.mem (.zp b))
  | .cmpZpx b => .read (.mem (.zpx b))
  | .cmpAbs w => .read (.mem (.abs w))
  | .cmpAbx w => .read (.mem (.abx w))
  | .cmpAby w => .read (.mem (.aby w))
  | .cmpIzx b => .read (.mem (.izx b))
  | .cmpIzy b => .read (.mem (.izy b))
  | .cpxImm v => .read (.imm v)
  | .cpxZp b => .read (.mem (.zp b))
  | .cpxAbs w => .read (.mem (.abs w))
  | .cpyImm v => .read (.imm v)
  | .cpyZp b => .read (.mem (.zp b))
  | .cpyAbs w => .read (.mem (.abs w))
  | .decZp b => .modify (.zp b) decOp
  | .decZpx b => .modify (.zpx b) decOp
  | .decAbs w => .modify (.abs w) decOp
  | .decAbx w => .modify (.abx w) decOp
  | .dex => .implied
  | .dey => .implied
  | .eorImm v => .read (.imm v)
  | .eorZp b => .read (.mem (.zp b))
  | .eorZpx b => .read (.mem (.zpx b))
  | .eorAbs w => .read (.mem (.abs w))
  | .eorAbx w => .read (.mem (.abx w))
  | .eorAby w => .read (.mem (.aby w))
  | .eorIzx b => .read (.mem (.izx b))
  | .eorIzy b => .read (.mem (.izy b))
  | .hlt => .implied
  | .incZp b => .modify (.zp b) incOp
  | .incZpx b => .modify (.zpx b) incOp
  | .incAbs w => .modify (.abs w) incOp
  | .incAbx w => .modify (.abx w) incOp
  | .inx => .implied
  | .iny => .implied
  | .jmpAbs w => .jump (.abs w)
  | .jmpInd w => .jump (.ind w)
  | .jsr w => .call w
  | .ldaImm v => .read (.imm v)
  | .ldaZp b => .read (.mem (.zp b))
  | .ldaZpx b => .read (.mem (.zpx b))
  | .ldaAbs w => .read (.mem (.abs w))
  | .ldaAbx w => .read (.mem (.abx w))
  | .ldaAby w => .read (.mem (.aby w))
  | .ldaIzx b => .read (.mem (.izx b))
  | .ldaIzy b => .read (.mem (.izy b))
  | .ldxImm v => .read (.imm v)
  | .ldxZp b => .read (.mem (.zp b))
  | .ldxZpy b => .read (.mem (.zpy b))
  | .ldxAbs w => .read (.mem (.abs w))
  | .ldxAby w => .read (.mem (.aby w))
  | .ldyImm v => .read (.imm v)
  | .ldyZp b => .read (.mem (.zp b))
  | .ldyZpx b => .read (.mem (.zpx b))
  | .ldyAbs w => .read (.mem (.abs w))
  | .ldyAbx w => .read (.mem (.abx w))
  | .lsrAcc => .accumulator
  | .lsrZp b => .modify (.zp b) lsrOp
  | .lsrZpx b => .modify (.zpx b) lsrOp
  | .lsrAbs w => .modify (.abs w) lsrOp
  | .lsrAbx w => .modify (.abx w) lsrOp
  | .nop => .implied
  | .oraImm v => .read (.imm v)
  | .oraZp b => .read (.mem (.zp b))
  | .oraZpx b => .read (.mem (.zpx b))
  | .oraAbs w => .read (.mem (.abs w))
  | .oraAbx w => .read (.mem (.abx w))
  | .oraAby w => .read (.mem (.aby w))
  | .oraIzx b => .read (.mem (.izx b))
  | .oraIzy b => .read (.mem (.izy b))
  | .pha => .push State.a
  | .php => .push fun s => s.p ||| Config.phpForce
  | .pla => .pull
  | .plp => .pull
  | .rolAcc => .accumulator
  | .rolZp b => .modify (.zp b) rolOp
  | .rolZpx b => .modify (.zpx b) rolOp
  | .rolAbs w => .modify (.abs w) rolOp
  | .rolAbx w => .modify (.abx w) rolOp
  | .rorAcc => .accumulator
  | .rorZp b => .modify (.zp b) rorOp
  | .rorZpx b => .modify (.zpx b) rorOp
  | .rorAbs w => .modify (.abs w) rorOp
  | .rorAbx w => .modify (.abx w) rorOp
  | .rti => .rti
  | .rts => .ret
  | .sbcImm v => .read (.imm v)
  | .sbcZp b => .read (.mem (.zp b))
  | .sbcZpx b => .read (.mem (.zpx b))
  | .sbcAbs w => .read (.mem (.abs w))
  | .sbcAbx w => .read (.mem (.abx w))
  | .sbcAby w => .read (.mem (.aby w))
  | .sbcIzx b => .read (.mem (.izx b))
  | .sbcIzy b => .read (.mem (.izy b))
  | .sec => .implied
  | .sed => .implied
  | .sei => .implied
  | .staZp b => .write (.zp b) State.a
  | .staZpx b => .write (.zpx b) State.a
  | .staAbs w => .write (.abs w) State.a
  | .staAbx w => .write (.abx w) State.a
  | .staAby w => .write (.aby w) State.a
  | .staIzx b => .write (.izx b) State.a
  | .staIzy b => .write (.izy b) State.a
  | .stxZp b => .write (.zp b) State.x
  | .stxZpy b => .write (.zpy b) State.x
  | .stxAbs w => .write (.abs w) State.x
  | .styZp b => .write (.zp b) State.y
  | .styZpx b => .write (.zpx b) State.y
  | .styAbs w => .write (.abs w) State.y
  | .tax => .implied
  | .tay => .implied
  | .tsx => .implied
  | .txa => .implied
  | .txs => .implied
  | .tya => .implied
  | .illegal _ => .noEntry

/-- The word behind a pointer: low byte at `lo`, high byte at `hi` (20 R43). -/
def State.pointer (s : State) (lo hi : Word) : Word := wordOf ((s.recordReads [lo]).busByte hi) (s.busByte lo)

/-- The pointer bytes a mode reads, in order (40 R113 to R115). -/
def MemMode.pointerReads (m : MemMode) (s : State) : List Word :=
  match m with
  | .zp _ => [] | .zpx _ => [] | .zpy _ => [] | .abs _ => [] | .abx _ => [] | .aby _ => []
  | .ind w => [w, wordOf (hi8 w) (lo8 w + 1)]
  | .izx b => [zeroPage (b + s.x), zeroPage (b + s.x + 1)]
  | .izy b => [zeroPage b, zeroPage (b + 1)]

/-- The effective address of a mode in a state (40 R107 to R115). -/
def MemMode.ea (m : MemMode) (s : State) : Word :=
  match m with
  | .zp b => zeroPage b
  | .zpx b => zeroPage (b + s.x)
  | .zpy b => zeroPage (b + s.y)
  | .abs w => w
  | .abx w => w + zext16 s.x
  | .aby w => w + zext16 s.y
  | .ind w => s.pointer w (wordOf (hi8 w) (lo8 w + 1))
  | .izx b => s.pointer (zeroPage (b + s.x)) (zeroPage (b + s.x + 1))
  | .izy b => s.pointer (zeroPage b) (zeroPage (b + 1)) + zext16 s.y

/-- The addresses a reading instruction reads, in order: its pointer bytes, then its operand (40 R118). -/
def Src.reads (src : Src) (s : State) : List Word :=
  match src with
  | .imm _ => []
  | .mem m => m.pointerReads s ++ [m.ea s]

/-- The operand byte `M` (40 R117). -/
def Src.value (src : Src) (s : State) : Byte :=
  match src with
  | .imm v => v
  | .mem m => (s.recordReads (m.pointerReads s)).busByte (m.ea s)

/-- The byte an operation makes of the cell at the effective address (40 R117, 42 R154). -/
def MemMode.altered (m : MemMode) (op : Byte → Byte → Altered) (s : State) : Altered :=
  op ((s.recordReads (m.pointerReads s)).busByte (m.ea s)) s.p

/-- The accesses an instruction makes after its bytes are fetched, in order, by class (the table of 40 R118 without its
fetches), with the bytes written. `s` is the state with PC past the instruction. -/
def OpClass.accesses (k : OpClass) (s : State) : List BusRequest :=
  match k with
  | .read src => (src.reads s).map .read
  | .write m reg => (m.pointerReads s).map .read ++ [.write (m.ea s) (reg s)]
  | .modify m op => (m.pointerReads s).map .read ++ [.read (m.ea s), .write (m.ea s) (m.altered op s).value]
  | .accumulator => []
  | .jump m => (m.pointerReads s).map .read
  | .branch _ => []
  | .push v => [.write (stackAddr s.sp) (v s)]
  | .pull => [.read (stackAddr (s.sp + 1))]
  | .call _ => [.write (stackAddr s.sp) (hi8 (s.pc - 1)), .write (stackAddr (s.sp - 1)) (lo8 (s.pc - 1))]
  | .ret => [.read (stackAddr (s.sp + 1)), .read (stackAddr (s.sp + 2))]
  | .rti => [.read (stackAddr (s.sp + 1)), .read (stackAddr (s.sp + 2)), .read (stackAddr (s.sp + 3))]
  | .implied => []
  | .noEntry => []

/-- The accesses an instruction makes after its fetch (40 R118). -/
def accesses (i : Instr) (s : State) : List BusRequest := (classOf i).accesses s

/-- The addresses an instruction stores to. -/
def storesTo (i : Instr) (s : State) : List Word :=
  ((accesses i s).filter fun q => q.kind == .write).map BusRequest.addr

/-- The fetches of an instruction of `len` bytes at `at0`: opcode and operand bytes in address order (40 R118). -/
def fetches (at0 : Word) (len : Nat) : List Word := (List.range len).map fun n => at0 + BitVec.ofNat 16 n

/-- What the bus saw, oldest first, as rows of 40 R118 write it. -/
def State.seen (s : State) : List BusRequest := (s.trace.map BusAccess.request).reverse

end Sys2Proof.Machine
end

