-- ==== Sys2Proof/Machine/Effects.lean ====
section
/-! DEFINITION. The register and flag access table of 10_state.md R32, as data: what each mnemonic may write. `exec` does
not use it; statements compare `exec` with it. -/

namespace Sys2Proof.Machine

/-- The registers of R32's columns. `pc` means a write beyond the fetch. -/
inductive Reg where
  | a | x | y | sp | pc
  deriving DecidableEq, Repr

/-- The registers a mnemonic may write in a mode (R32: the shifts and rotates write A in their accumulator form only). -/
def registersWritten : Mnemonic → Mode → List Reg
  | .adc, _ => [.a]
  | .and, _ => [.a]
  | .asl, m => if m = .acc then [.a] else []
  | .bcc, _ => [.pc]
  | .bcs, _ => [.pc]
  | .beq, _ => [.pc]
  | .bit, _ => []
  | .bmi, _ => [.pc]
  | .bne, _ => [.pc]
  | .bpl, _ => [.pc]
  | .bvc, _ => [.pc]
  | .bvs, _ => [.pc]
  | .clc, _ => []
  | .cld, _ => []
  | .cli, _ => []
  | .clv, _ => []
  | .cmp, _ => []
  | .cpx, _ => []
  | .cpy, _ => []
  | .dec, _ => []
  | .dex, _ => [.x]
  | .dey, _ => [.y]
  | .eor, _ => [.a]
  | .hlt, _ => []
  | .inc, _ => []
  | .inx, _ => [.x]
  | .iny, _ => [.y]
  | .jmp, _ => [.pc]
  | .jsr, _ => [.sp, .pc]
  | .lda, _ => [.a]
  | .ldx, _ => [.x]
  | .ldy, _ => [.y]
  | .lsr, m => if m = .acc then [.a] else []
  | .nop, _ => []
  | .ora, _ => [.a]
  | .pha, _ => [.sp]
  | .php, _ => [.sp]
  | .pla, _ => [.a, .sp]
  | .plp, _ => [.sp]
  | .rol, m => if m = .acc then [.a] else []
  | .ror, m => if m = .acc then [.a] else []
  | .rti, _ => [.sp, .pc]
  | .rts, _ => [.sp, .pc]
  | .sbc, _ => [.a]
  | .sec, _ => []
  | .sed, _ => []
  | .sei, _ => []
  | .sta, _ => []
  | .stx, _ => []
  | .sty, _ => []
  | .tax, _ => [.x]
  | .tay, _ => [.y]
  | .tsx, _ => [.x]
  | .txa, _ => [.a]
  | .txs, _ => [.sp]
  | .tya, _ => [.a]

/-- The flags a mnemonic may write (R32). -/
def flagsWritten : Mnemonic → List Flag
  | .adc => [.n, .v, .z, .c]
  | .and => [.n, .z]
  | .asl => [.n, .z, .c]
  | .bcc => []
  | .bcs => []
  | .beq => []
  | .bit => [.n, .v, .z]
  | .bmi => []
  | .bne => []
  | .bpl => []
  | .bvc => []
  | .bvs => []
  | .clc => [.c]
  | .cld => [.d]
  | .cli => [.i]
  | .clv => [.v]
  | .cmp => [.n, .z, .c]
  | .cpx => [.n, .z, .c]
  | .cpy => [.n, .z, .c]
  | .dec => [.n, .z]
  | .dex => [.n, .z]
  | .dey => [.n, .z]
  | .eor => [.n, .z]
  | .hlt => []
  | .inc => [.n, .z]
  | .inx => [.n, .z]
  | .iny => [.n, .z]
  | .jmp => []
  | .jsr => []
  | .lda => [.n, .z]
  | .ldx => [.n, .z]
  | .ldy => [.n, .z]
  | .lsr => [.n, .z, .c]
  | .nop => []
  | .ora => [.n, .z]
  | .pha => []
  | .php => []
  | .pla => [.n, .z]
  | .plp => [.n, .v, .u, .b, .d, .i, .z, .c]
  | .rol => [.n, .z, .c]
  | .ror => [.n, .z, .c]
  | .rti => [.n, .v, .u, .b, .d, .i, .z, .c]
  | .rts => []
  | .sbc => [.n, .v, .z, .c]
  | .sec => [.c]
  | .sed => [.d]
  | .sei => [.i]
  | .sta => []
  | .stx => []
  | .sty => []
  | .tax => [.n, .z]
  | .tay => [.n, .z]
  | .tsx => [.n, .z]
  | .txa => [.n, .z]
  | .txs => []
  | .tya => [.n, .z]

/-- The registers an instruction may write; a byte with no entry writes none (60 R241). -/
def regsOf (i : Instr) : List Reg :=
  match mnemonicOf i, modeOf i with
  | some m, some k => registersWritten m k
  | _, _ => []

/-- The flags an instruction may write; a byte with no entry writes none (60 R241). -/
def flagsOf (i : Instr) : List Flag :=
  match mnemonicOf i with
  | some m => flagsWritten m
  | none => []

end Sys2Proof.Machine
end

