-- ==== Sys2Proof/Machine/Launch.lean ====
section
/-! DEFINITION. What the host does between steps: create, reset, preset, launch, run (10_state.md R33,
40_execution_and_addressing.md R119, 60_exceptions.md R256, 70_reset_and_hazards.md R270 to R274). -/

namespace Sys2Proof.Machine

/-- `Reset(start)` (70 R272), from any run state: every register zero, PC at `start`, Running, no fault record. Memory,
the bus and what it has seen are not touched. -/
def State.resetTo (s : State) (start : Word) : State :=
  { s with a := 0x00, x := 0x00, y := 0x00, sp := 0x00, p := 0x00, pc := start, run := .running }

/-- `Create` (70 R270): a zeroed CPU state beside a host's memory and bus, which it does not touch. -/
def State.create (mem : Memory) (bus : Bus) : State :=
  { a := 0x00, x := 0x00, y := 0x00, sp := 0x00, p := 0x00, pc := 0x0000, run := .running,
    mem := mem, bus := bus, trace := [] }

/-- One host write to a register or flag between steps (10 R33): it updates no flag of its own. -/
inductive Preset where
  | a (v : Byte) | x (v : Byte) | y (v : Byte) | sp (v : Byte) | p (v : Byte) | pc (w : Word)
  | flag (f : Flag) (v : Bool)
  deriving DecidableEq, Repr

/-- Perform a host write (10 R33). -/
def State.preset (s : State) : Preset → State
  | .a v => s.setA v
  | .x v => s.setX v
  | .y v => s.setY v
  | .sp v => s.setSp v
  | .p v => s.setP v
  | .pc w => s.setPc w
  | .flag f v => s.setFlag f v

/-- The host's choice of bus (20 R50): the two platforms the spec defines, or any other of the shape of R41. -/
inductive Platform where
  | flatRam64K
  | imageOnly
  | other (bus : Bus)
  deriving DecidableEq, Repr

/-- The parameters of a run (00 R6). -/
structure LaunchParams where
  image     : List Byte
  imageBase : Word := Config.imageBase
  startPc   : Word := Config.startPc
  platform  : Platform := .flatRam64K
  memInit   : Byte := Config.memInit
  presets   : List Preset := []
  deriving DecidableEq, Repr

/-- The launch premise on the image: it does not wrap (70 R274, 92 D23). -/
def LaunchParams.fits (l : LaunchParams) : Bool := decide (l.imageBase.toNat + l.image.length ≤ Config.cells)

/-- The bus of a platform (20 R50). -/
def LaunchParams.bus (l : LaunchParams) : Bus :=
  match l.platform with
  | .flatRam64K => Bus.flatRam64K
  | .imageOnly => Bus.imageOnly l.imageBase.toNat l.image.length
  | .other b => b

/-- Memory at launch (20 R49, R50, 70 R273 step 1): filled with `memInit`, then the image copied in. Under `ImageOnly`
the memory is the image, and no other cell is readable. -/
def LaunchParams.memory (l : LaunchParams) : Memory :=
  match l.platform with
  | .imageOnly => Memory.load l.imageBase.toNat l.image []
  | .flatRam64K => Memory.load l.imageBase.toNat l.image (Memory.filled l.memInit)
  | .other _ => Memory.load l.imageBase.toNat l.image (Memory.filled l.memInit)

/-- The launch (70 R273): image on the bus, `Reset(START_PC)`, presets. A launch whose image does not fit is outside the
spec (92 D23) and gives no state. -/
def launch (l : LaunchParams) : Option State :=
  if l.fits then
    some (l.presets.foldl State.preset ((State.create l.memory l.bus).resetTo l.startPc))
  else none

/-- `Run()` (40 R119) under fuel: step while Running, at most `n` times. -/
def State.runFor (s : State) : Nat → State
  | 0 => s
  | n + 1 =>
    match step s with
    | .next t => State.runFor t n
    | .fault _ => s
    | .refused _ => s

/-- A run has ended (60 R256). -/
def State.ended (s : State) : Bool := s.run != .running

/-- A run has ended successfully (60 R256): Halted, and never Faulted. -/
def State.succeeded (s : State) : Bool := s.run == .halted

/-- The class code of a fault (60 R240, 92 D20). -/
def FaultRecord.code : FaultRecord → Nat
  | .decodeFailure _ _ => 1
  | .addressingFailure _ _ _ => 2

/-- The address of the opcode of the instruction that raised the fault (60 R241, R242). -/
def FaultRecord.origin : FaultRecord → Word
  | .decodeFailure _ opAt => opAt
  | .addressingFailure _ _ opAt => opAt

end Sys2Proof.Machine
end

