-- ==== Sys2Proof/Safety.lean ====
section
/-! DEFINITION. What the claims are stated in: plain memory, the machine's invariant, the state without what the bus has
seen. -/

namespace Sys2Proof.Machine

/-- Plain memory is at an address, whatever the bus has seen (20 R47, R52). -/
def Bus.plainAt (b : Bus) (a : Word) : Prop := ∀ seen q, q.addr = a → b.reply seen q = .memory

/-- The bus takes no notice of what it has seen: how it deals with a request does not depend on it, and no device is
there. -/
def Bus.stateless (b : Bus) : Prop :=
  ∀ seen q, b.reply seen q = b.reply [] q ∧ ∀ id, b.reply seen q ≠ .device id

/-- Whether the bus services each of these accesses, having seen those before it (newest first). -/
def Bus.servicedEach (b : Bus) : List BusAccess → Bool
  | [] => true
  | q :: seen => b.services seen q.request && b.servicedEach seen

/-- A fault record says what is so: a decode failure names a byte with no entry (60 R241), an addressing failure a
request that the bus, having seen these accesses, refuses (60 R242). -/
def FaultRecord.truthful (b : Bus) (seen : List BusAccess) : FaultRecord → Prop
  | .decodeFailure op _ => isUndocumented op = true
  | .addressingFailure a k _ => ∃ q : BusRequest, q.addr = a ∧ q.kind = k ∧ b.services seen q = false

/-- The invariant every step keeps: memory in its canonical form, a fault record that is truthful (60 R241, R242), and
nothing seen by the bus that it did not service (20 R42). -/
structure State.Inv (s : State) : Prop where
  wf : s.mem.wf = true
  truthful : ∀ r, s.run = .faulted r → r.truthful s.bus s.trace
  serviced : s.bus.servicedEach s.trace = true

/-- The state without the accesses seen so far. -/
def State.unseen (s : State) : State := { s with trace := [] }

/-- Apply a function to the next state of an outcome, if there is one. -/
def onNext (f : State → State) (o : Outcome) : Outcome :=
  match o with
  | .next t => .next (f t)
  | .fault r => .fault r
  | .refused r => .refused r

end Sys2Proof.Machine
end

