-- ==== Sys2Proof/Certificates/Slice0/Obligations.lean ====
section
/-! DEFINITION. The statements for the provers, taken from the spec's rules. -/

namespace Sys2Proof.Claims

open Sys2Proof.Machine

/-- A reading instruction completes: when the bus services its reads, it gives `next` of its operand byte and the state
with the reads noted (40 R117). -/
def Reads (i : Instr) (src : Src) (next : Byte → State → State) : Prop :=
  ∀ s : State, s.servicesReads (src.reads s) = true →
    exec i s = .next (next (src.value s) (s.recordReads (src.reads s)))

/-- A storing instruction completes: when the bus services its pointer reads and its write, the register's byte is
written to the effective address (into memory, where plain memory serves it) and nothing else is changed (40 R117). -/
def Stores (i : Instr) (m : MemMode) (reg : State → Byte) : Prop :=
  ∀ s : State, s.servicesReads (m.pointerReads s) = true →
    (s.recordReads (m.pointerReads s)).services (.write (m.ea s) (reg s)) = true →
    exec i s = .next ((s.recordReads (m.pointerReads s)).store (m.ea s) (reg s))

/-- A read-modify-write instruction completes: when the bus services its reads and its write, the new byte is
written to the cell and P has the new flags, both computed from the old byte and the old P, and nothing else is changed
(42 R154). -/
def Modifies (i : Instr) (m : MemMode) (new flags : Byte → Byte → Byte) : Prop :=
  ∀ s : State,
    let reads := m.pointerReads s ++ [m.ea s]
    let old := (s.recordReads (m.pointerReads s)).busByte (m.ea s)
    s.servicesReads reads = true → (s.recordReads reads).services (.write (m.ea s) (new old s.p)) = true →
    exec i s = .next (((s.recordReads reads).store (m.ea s) (new old s.p)).setP (flags old s.p))

/-- An instruction writes one flag and nothing else. -/
def WritesFlag (i : Instr) (s : State) (f : Flag) (v : Bool) : Prop :=
  ∃ q : Byte, exec i s = .next { s with p := q } ∧ getFlag q f = v ∧ ∀ g, g ≠ f → getFlag q g = getFlag s.p g

/-- A resolver's result: the effective address with this value, and this state. -/
def ResolvesTo (r : Res Word) (ea : Nat) (t : State) : Prop := ∃ v, r = .done v t ∧ v.toNat = ea

/-- What ADC makes of an operand (41 R131). -/
def adcNext (m : Byte) (t : State) : State :=
  let q := addWithCarry t.a m (getFlag t.p .c)
  { t with a := q.r, p := zn (putFlag (putFlag t.p .c q.cout) .v q.vout) q.r }

/-- What SBC makes of an operand (41 R132): the adder on `0xFF - M`. -/
def sbcNext (m : Byte) (t : State) : State :=
  let q := addWithCarry t.a (0xFF - m) (getFlag t.p .c)
  { t with a := q.r, p := zn (putFlag (putFlag t.p .c q.cout) .v q.vout) q.r }

/-- What a logic instruction makes of an operand (41 R133 to R135). -/
def logicNext (op : Byte → Byte → Byte) (m : Byte) (t : State) : State :=
  { t with a := op t.a m, p := zn t.p (op t.a m) }

/-- The byte ASL gives (42 R150): twice the old one, modulo 256. -/
def aslValue (old _p : Byte) : Byte := BitVec.ofNat 8 (old.toNat * 2)

/-- P after ASL (42 R150). -/
def aslFlags (old p : Byte) : Byte := zn (putFlag p .c (old.getLsbD 7)) (aslValue old p)

/-- The byte LSR gives (42 R151): half the old one, rounded down. -/
def lsrValue (old _p : Byte) : Byte := BitVec.ofNat 8 (old.toNat / 2)

/-- P after LSR (42 R151). -/
def lsrFlags (old p : Byte) : Byte := zn (putFlag p .c (old.getLsbD 0)) (lsrValue old p)

/-- The byte ROL gives (42 R152): the old carry enters bit 0. -/
def rolValue (old p : Byte) : Byte := BitVec.ofNat 8 (old.toNat * 2 + (getFlag p .c).toNat)

/-- P after ROL (42 R152). -/
def rolFlags (old p : Byte) : Byte := zn (putFlag p .c (old.getLsbD 7)) (rolValue old p)

/-- The byte ROR gives (42 R153): the old carry enters bit 7. -/
def rorValue (old p : Byte) : Byte := BitVec.ofNat 8 (old.toNat / 2 + 128 * (getFlag p .c).toNat)

/-- P after ROR (42 R153). -/
def rorFlags (old p : Byte) : Byte := zn (putFlag p .c (old.getLsbD 0)) (rorValue old p)

end Sys2Proof.Claims

open Sys2Proof Sys2Proof.Machine Sys2Proof.Claims

/-- For every instruction, well formed as syntax, and every list of bytes after it: decode of its encoding followed by
that list is the instruction and the list. The byte values are those the spec supplies from general knowledge (93 G1,
log entry 7). (30_encoding.md R70 to R76; 30_encoding.md R79) -/
def Obligations.DecodeOfEncode : Prop :=
  ∀ (i : Instr) (rest : List Byte), wellFormed i = true → decode (encode i ++ rest) = .ok (i, rest)

/-- If a list of bytes decodes to an instruction and a rest, the instruction is well formed and the list is its
encoding followed by the rest: each byte sequence stands for one instruction only. (30_encoding.md R70 to R76;
30_encoding.md R79) -/
def Obligations.EncodeOfDecode : Prop :=
  ∀ (l rest : List Byte) (i : Instr), decode l = .ok (i, rest) → wellFormed i = true ∧ l = encode i ++ rest

/-- For every byte: the opcode map has no entry for it exactly when it is in the list of R76, there are 105 such
bytes, and such a byte, whatever follows it, decodes to illegal of that byte with everything after it left over. Which
bytes these are is the spec's decision D3 (log entry 7), and that one constructor stands for them all is log entry 12.
(30_encoding.md R76; 30_encoding.md R79) -/
def Obligations.NoEntryExactlyUndocumented : Prop :=
  (∀ op : Byte, lookup op = none ↔ op.toNat ∈ undocumented) ∧
  undocumented.length = 105 ∧
  (∀ (op : Byte) (rest : List Byte), isUndocumented op = true → decode (op :: rest) = .ok (.illegal op, rest))

/-- Two well-formed instructions with the same opcode byte have the same mode, the same mnemonic and the same length,
and the length is one plus the mode's operand bytes, or one for a byte with no entry: R73 gives such a byte no length,
and the one byte that is fetched of it is the model's own count (log entries 11 and 12). (30_encoding.md R70, R71,
R73; 30_encoding.md R76) -/
def Obligations.LengthFixedByOpcode : Prop :=
  (∀ i j : Instr, wellFormed i = true → wellFormed j = true → opcodeOf i = opcodeOf j →
    modeOf i = modeOf j ∧ mnemonicOf i = mnemonicOf j ∧ lengthOf i = lengthOf j) ∧
  (∀ i : Instr, (encode i).length = lengthOf i ∧
    (∀ m, modeOf i = some m → lengthOf i = 1 + operandCount m) ∧ (modeOf i = none → lengthOf i = 1))

/-- The five opcodes the source itself gives (HLT 00, LDA immediate A9, TAX AA, INX E8, CPY immediate C0) decode to
their instructions, operand bytes low byte first. So do one or two words of each other family (6D, 7E, B8, 20, 91, 6C,
D0), and 02, which has no entry: those bytes are not the source's, the spec supplies them from general knowledge (93
G1, 92 D1 and D3), and the model presumes them (log entry 7). (30_encoding.md R71, R72, R74) -/
def Obligations.SomeWordsDecode : Prop :=
  decode [0x00] = .ok (.hlt, []) ∧ decode [0xA9, 0x05, 0x00] = .ok (.ldaImm 0x05, [0x00]) ∧
  decode [0xAA] = .ok (.tax, []) ∧ decode [0xE8] = .ok (.inx, []) ∧ decode [0xC0, 0x10] = .ok (.cpyImm 0x10, []) ∧
  decode [0x6D, 0x16, 0x02] = .ok (.adcAbs 0x0216, []) ∧ decode [0x7E, 0x00, 0x03] = .ok (.rorAbx 0x0300, []) ∧
  decode [0xB8] = .ok (.clv, []) ∧ decode [0x20, 0x34, 0x12] = .ok (.jsr 0x1234, []) ∧
  decode [0x91, 0x22] = .ok (.staIzy 0x22, []) ∧ decode [0x6C, 0xFF, 0x30] = .ok (.jmpInd 0x30FF, []) ∧
  decode [0xD0, 0xFB] = .ok (.bne 0xFB, []) ∧ decode [0x02, 0x34] = .ok (.illegal 0x02, [0x34])

/-- In the run state Running, when the three bytes from PC on begin with instruction i and the bus services the reads
of its bytes, step is exec of i in the state where those bytes have been fetched: PC advanced past them (modulo
65536), the reads noted, nothing else changed. That PC wraps inside an instruction is the spec's decision D28 (log
entry 15). (40_execution_and_addressing.md R100, R101, R103) -/
def Obligations.StepRunsDecoded : Prop :=
  ∀ (s : State) (i : Instr) (rest : List Byte), s.run = .running →
    decode (s.stream 3) = .ok (i, rest) → s.servicesFetch (lengthOf i) = true →
    step s = exec i (s.afterFetch (lengthOf i)) ∧
    s.afterFetch (lengthOf i) =
      (s.recordReads (fetches s.pc (lengthOf i))).setPc (s.pc + BitVec.ofNat 16 (lengthOf i)) ∧
    ∃ l, s.afterFetch (lengthOf i) =
      { s with pc := s.pc + BitVec.ofNat 16 (lengthOf i), trace := l ++ s.trace }

/-- In the run state Running, with n bytes of the instruction serviced and the next one refused (the refused byte
counts as 0x00 in the three bytes from PC on that begin with the instruction, of which only the length matters here),
the step ends Faulted with an addressing failure naming that byte's address, a read, and the opcode's address; PC
stands at the refused byte and nothing but the fetched bytes has been noted. That PC stays there, that the earlier
fetches are kept and that the first refused byte is the one reported is the spec's decisions D11, D12 and D30 (log
entry 10). (40_execution_and_addressing.md R101; 60_exceptions.md R242, R243, R247) -/
def Obligations.StepFaultsAtRefusedFetch : Prop :=
  ∀ (s : State) (i : Instr) (rest : List Byte) (n : Nat), s.run = .running →
    decode (s.stream 3) = .ok (i, rest) → n < lengthOf i → s.servicesFetch n = true →
    (s.afterFetch n).services (.read (s.pc + BitVec.ofNat 16 n)) = false →
    step s = .next ((s.afterFetch n).setRun
      (.faulted (.addressingFailure (s.pc + BitVec.ofNat 16 n) .read s.pc)))

/-- Every state whose run state is Running steps to a next state, whatever its memory, bus and registers: no
instruction and no byte stops the model. A Halted state and a Faulted state have no step (the spec's decision D17; log
entry 4). (40_execution_and_addressing.md R100, R120; 10_state.md R28) -/
def Obligations.StepExactlyWhenRunning : Prop :=
  ∀ s : State,
    (s.run = .running → ∃ t, step s = .next t) ∧
    (s.run = .halted → step s = .fault .haltedHasNoStep) ∧
    (∀ r, s.run = .faulted r → step s = .fault (.faultedHasNoStep r))

/-- From every state that meets State.Inv, a step that gives a next state gives one that meets it: memory stays in
canonical form, a decode failure names a byte with no entry, an addressing failure names an address and kind of access
that the bus, having seen what it has, refuses, and every noted access is one the bus serviced, having seen those
before it. The canonical form is the model's own (log entry 2), and so is that the bus's state is what it has seen
(log entries 1 and 3). (20_memory.md R40, R42; 60_exceptions.md R241, R242; 10_state.md R29) -/
def Obligations.StepKeepsInvariant : Prop :=
  ∀ s t : State, s.Inv → step s = .next t → t.Inv

/-- State.reset meets State.Inv; so does every state a launch gives, for every image that fits, base, fill, platform
and list of presets; and Reset(start) keeps it. The order of a launch is the spec's decision D15 and which images fit
its D23 (log entry 17). (70_reset_and_hazards.md R272, R273; 10_state.md R31) -/
def Obligations.ResetAndLaunchMeetInvariant : Prop :=
  State.reset.Inv ∧
  (∀ (l : LaunchParams) (s : State), launch l = some s → s.Inv) ∧
  (∀ (s : State) (start : Word), s.Inv → (s.resetTo start).Inv)

/-- If a step from a Running state ends Halted, the byte at PC was 0x00, and the next state is the state with that
byte fetched and the run state Halted: registers, flags, stack pointer and memory are as they were. That PC is then
one past the byte is the spec's decision D17 (log entry 21). (10_state.md R28; 46_control_flow.md R231) -/
def Obligations.HaltedOnlyThroughHlt : Prop :=
  ∀ s t : State, step s = .next t → t.run = .halted →
    s.busByte s.pc = 0x00 ∧ t = { s with
      pc := s.pc + 1, run := .halted, trace := ⟨.read, s.pc, 0x00⟩ :: s.trace }

/-- If a step ends Faulted, its record's opcode address is the PC the step began with; a decode failure's byte is the
byte read there, one with no entry, PC is one past it and nothing else but the run state and the noted fetch has
changed. The Faulted run state, its record with the opcode's address, and PC one past the byte after a decode failure
are the spec's decision D11 (log entry 10), and how a meaning computes that address is log entry 11. (60_exceptions.md
R241, R242, R248) -/
def Obligations.FaultNamesItsInstruction : Prop :=
  ∀ (s t : State) (r : FaultRecord), step s = .next t → t.run = .faulted r →
    r.origin = s.pc ∧
    (∀ op at0, r = .decodeFailure op at0 → op = s.busByte s.pc ∧ isUndocumented op = true ∧
      t = { s with
        pc := s.pc + 1, run := .faulted (.decodeFailure op s.pc), trace := ⟨.read, s.pc, op⟩ :: s.trace })

/-- For every instruction and state, exec leaves the run state as it was, or the instruction is HLT and it is Halted,
or the instruction is a byte with no entry and it is Faulted with that decode failure, or the bus, having serviced the
instruction's accesses before it, refuses one of its accesses and it is Faulted with that addressing failure, the
opcode's address recorded. The order of the accesses is the spec's decision D10 (log entry 16), the first refused one
counting is D30 (log entry 10), the Faulted run state and its record are D11 (log entry 10), and the opcode's address
as PC minus length is log entry 11. (10_state.md R28; 60_exceptions.md R240 to R242; 46_control_flow.md R231) -/
def Obligations.RunStateChanges : Prop :=
  ∀ (i : Instr) (s t : State), exec i s = .next t →
    t.run = s.run ∨ (i = .hlt ∧ t.run = .halted) ∨
    (∃ op, i = .illegal op ∧ t.run = .faulted (.decodeFailure op (s.pc - 1))) ∨
    (∃ pre q post, accesses i s = pre ++ q :: post ∧ s.servicesAll pre = true ∧
      (s.servicedAll pre).services q = false ∧
      t.run = .faulted (.addressingFailure q.addr q.kind (s.pc - BitVec.ofNat 16 (lengthOf i))))

/-- For every instruction and every state, exec answers a next state; a fault of the spec is a next state whose run
state is Faulted (log entry 4). (60_exceptions.md R243, R244, R248; 40_execution_and_addressing.md R100) -/
def Obligations.ExecAlwaysNext : Prop :=
  ∀ (i : Instr) (s : State), ∃ t, exec i s = .next t

/-- In the run state Running, when the bus services the fetches and then the table's accesses of the decoded
instruction, one after the other, the step gives a next state that is not Faulted, unless the instruction is a byte
with no entry, and the bus has seen, after what it had seen, the fetches of opcode and operand bytes in address order
and then the accesses of the instruction's row of the table in order, each write with the byte the instruction's rule
gives. The exact sequence is the spec's decision D10 (log entry 16). (40_execution_and_addressing.md R117, R118;
20_memory.md R45, R46) -/
def Obligations.AccessSequence : Prop :=
  ∀ (s : State) (i : Instr) (rest : List Byte), s.run = .running →
    decode (s.stream 3) = .ok (i, rest) → s.servicesFetch (lengthOf i) = true →
    (s.afterFetch (lengthOf i)).servicesAll (accesses i (s.afterFetch (lengthOf i))) = true →
    ∃ t, step s = .next t ∧
      (t.run = .running ∨ (i = .hlt ∧ t.run = .halted) ∨ (∃ op, i = .illegal op)) ∧
      t.seen = s.seen ++ (fetches s.pc (lengthOf i)).map .read ++ accesses i (s.afterFetch (lengthOf i))

/-- If an instruction's accesses are a serviced part, then a refused access, then a rest, exec gives a state Faulted
with an addressing failure of exactly that access and the opcode's address, and the bus has seen the serviced part and
nothing more. That the first refused access in table order is the one reported, and that later ones never happen, is
the spec's decisions D12 and D30 (log entry 10) over the order of D10 (log entry 16), and the opcode's address as PC
minus length is deduced (log entry 11). (60_exceptions.md R242, R243, R247; 40_execution_and_addressing.md R118) -/
def Obligations.FirstRefusedAccessFaults : Prop :=
  ∀ (i : Instr) (s : State) (pre post : List BusRequest) (q : BusRequest),
    accesses i s = pre ++ q :: post → s.servicesAll pre = true → (s.servicedAll pre).services q = false →
    ∃ t, exec i s = .next t ∧
      t.run = .faulted (.addressingFailure q.addr q.kind (s.pc - BitVec.ofNat 16 (lengthOf i))) ∧
      t.seen = s.seen ++ pre

/-- For every instruction and state, whatever exec gives (a fault included): A, X, Y and SP are unchanged unless the
row of R32 writes them, and PC beyond the fetch is unchanged unless the row writes it. Memory forms of the shifts and
rotates write no register. What a fault leaves unchanged is the spec's decision D12 (log entry 10). (10_state.md R32)
-/
def Obligations.RegisterFrame : Prop :=
  ∀ (i : Instr) (s t : State), exec i s = .next t →
    (Reg.a ∉ regsOf i → t.a = s.a) ∧ (Reg.x ∉ regsOf i → t.x = s.x) ∧ (Reg.y ∉ regsOf i → t.y = s.y) ∧
    (Reg.sp ∉ regsOf i → t.sp = s.sp) ∧ (Reg.pc ∉ regsOf i → t.pc = s.pc)

/-- For every instruction and state, whatever exec gives (a fault included), and every one of the eight bits of P: the
bit is unchanged unless the row of R32 writes it. In particular B and bit 5 change in PLP and RTI only. What a fault
leaves unchanged is the spec's decision D12 (log entry 10). (10_state.md R32; 10_state.md R17 to R24) -/
def Obligations.FlagFrame : Prop :=
  ∀ (i : Instr) (s t : State) (f : Flag), exec i s = .next t → f ∉ flagsOf i → getFlag t.p f = getFlag s.p f

/-- For every instruction and state, whatever exec gives (a fault included): every address outside the addresses the
instruction stores to, computed from the state it runs in, reads as before (all of memory for the forms that store
nothing); the cases of the bus are those they were (what changes is what it has seen, and with it its phase), which is
the model's form of a host's bus (log entry 1); what it had seen stays seen, newest first (log entry 3).
(40_execution_and_addressing.md R117, R118; 20_memory.md R46) -/
def Obligations.MemoryAndBusFrame : Prop :=
  ∀ (i : Instr) (s t : State), exec i s = .next t →
    (∀ a : Word, a ∉ storesTo i s → t.mem.read a = s.mem.read a) ∧ t.bus = s.bus ∧
    ∃ l, t.trace = l ++ s.trace

/-- For every form of LDA (8), LDX (5) and LDY (5) and every state in which the bus services the reads the form makes,
exec gives the next state in which the register holds the operand byte, Z and N are set from it, the reads are noted,
and nothing else is changed. The opcode bytes and mode sets are the spec's own supply (93 G1; log entry 7).
(45_load_store_transfer.md R200 to R202; 40_execution_and_addressing.md R117) -/
def Obligations.LoadsComplete : Prop :=
  (∀ v, Reads (.ldaImm v) (.imm v) (fun m t => (t.setA m).setP (zn t.p m))) ∧
  (∀ b, Reads (.ldaZp b) (.mem (.zp b)) (fun m t => (t.setA m).setP (zn t.p m))) ∧
  (∀ b, Reads (.ldaZpx b) (.mem (.zpx b)) (fun m t => (t.setA m).setP (zn t.p m))) ∧
  (∀ w, Reads (.ldaAbs w) (.mem (.abs w)) (fun m t => (t.setA m).setP (zn t.p m))) ∧
  (∀ w, Reads (.ldaAbx w) (.mem (.abx w)) (fun m t => (t.setA m).setP (zn t.p m))) ∧
  (∀ w, Reads (.ldaAby w) (.mem (.aby w)) (fun m t => (t.setA m).setP (zn t.p m))) ∧
  (∀ b, Reads (.ldaIzx b) (.mem (.izx b)) (fun m t => (t.setA m).setP (zn t.p m))) ∧
  (∀ b, Reads (.ldaIzy b) (.mem (.izy b)) (fun m t => (t.setA m).setP (zn t.p m))) ∧
  (∀ v, Reads (.ldxImm v) (.imm v) (fun m t => (t.setX m).setP (zn t.p m))) ∧
  (∀ b, Reads (.ldxZp b) (.mem (.zp b)) (fun m t => (t.setX m).setP (zn t.p m))) ∧
  (∀ b, Reads (.ldxZpy b) (.mem (.zpy b)) (fun m t => (t.setX m).setP (zn t.p m))) ∧
  (∀ w, Reads (.ldxAbs w) (.mem (.abs w)) (fun m t => (t.setX m).setP (zn t.p m))) ∧
  (∀ w, Reads (.ldxAby w) (.mem (.aby w)) (fun m t => (t.setX m).setP (zn t.p m))) ∧
  (∀ v, Reads (.ldyImm v) (.imm v) (fun m t => (t.setY m).setP (zn t.p m))) ∧
  (∀ b, Reads (.ldyZp b) (.mem (.zp b)) (fun m t => (t.setY m).setP (zn t.p m))) ∧
  (∀ b, Reads (.ldyZpx b) (.mem (.zpx b)) (fun m t => (t.setY m).setP (zn t.p m))) ∧
  (∀ w, Reads (.ldyAbs w) (.mem (.abs w)) (fun m t => (t.setY m).setP (zn t.p m))) ∧
  (∀ w, Reads (.ldyAbx w) (.mem (.abx w)) (fun m t => (t.setY m).setP (zn t.p m)))

/-- For every form of ADC (8) and every state in which the bus services the reads the form makes, exec gives the next
state in which A is the adder's byte, C its carry out, V its overflow, Z and N from the byte, the reads are noted, and
nothing else is changed; D is not read. The opcode bytes and mode sets are the spec's own supply (93 G1; log entry 7).
(41_alu_arithmetic_logic_compare.md R131, R141) -/
def Obligations.AdcCompletes : Prop :=
  (∀ v, Reads (.adcImm v) (.imm v) adcNext) ∧
  (∀ b, Reads (.adcZp b) (.mem (.zp b)) adcNext) ∧
  (∀ b, Reads (.adcZpx b) (.mem (.zpx b)) adcNext) ∧
  (∀ w, Reads (.adcAbs w) (.mem (.abs w)) adcNext) ∧
  (∀ w, Reads (.adcAbx w) (.mem (.abx w)) adcNext) ∧
  (∀ w, Reads (.adcAby w) (.mem (.aby w)) adcNext) ∧
  (∀ b, Reads (.adcIzx b) (.mem (.izx b)) adcNext) ∧
  (∀ b, Reads (.adcIzy b) (.mem (.izy b)) adcNext)

/-- For every form of SBC (8) and every state in which the bus services the reads the form makes, exec gives the next
state in which A is the adder's byte for A, 0xFF minus the operand and the carry, C and V are its outputs, Z and N
from the byte, and nothing else is changed; D is not read. The opcode bytes and mode sets are the spec's own supply
(93 G1; log entry 7). (41_alu_arithmetic_logic_compare.md R132, R141) -/
def Obligations.SbcCompletes : Prop :=
  (∀ v, Reads (.sbcImm v) (.imm v) sbcNext) ∧
  (∀ b, Reads (.sbcZp b) (.mem (.zp b)) sbcNext) ∧
  (∀ b, Reads (.sbcZpx b) (.mem (.zpx b)) sbcNext) ∧
  (∀ w, Reads (.sbcAbs w) (.mem (.abs w)) sbcNext) ∧
  (∀ w, Reads (.sbcAbx w) (.mem (.abx w)) sbcNext) ∧
  (∀ w, Reads (.sbcAby w) (.mem (.aby w)) sbcNext) ∧
  (∀ b, Reads (.sbcIzx b) (.mem (.izx b)) sbcNext) ∧
  (∀ b, Reads (.sbcIzy b) (.mem (.izy b)) sbcNext)

/-- For every form of AND, ORA and EOR (8 each) and every state in which the bus services the reads the form makes,
exec gives the next state in which A is the bitwise result, Z and N are set from it, the reads are noted, and nothing
else is changed. The opcode bytes and mode sets are the spec's own supply (93 G1; log entry 7).
(41_alu_arithmetic_logic_compare.md R133 to R135) -/
def Obligations.LogicCompletes : Prop :=
  (∀ v, Reads (.andImm v) (.imm v) (logicNext (· &&& ·))) ∧
  (∀ b, Reads (.andZp b) (.mem (.zp b)) (logicNext (· &&& ·))) ∧
  (∀ b, Reads (.andZpx b) (.mem (.zpx b)) (logicNext (· &&& ·))) ∧
  (∀ w, Reads (.andAbs w) (.mem (.abs w)) (logicNext (· &&& ·))) ∧
  (∀ w, Reads (.andAbx w) (.mem (.abx w)) (logicNext (· &&& ·))) ∧
  (∀ w, Reads (.andAby w) (.mem (.aby w)) (logicNext (· &&& ·))) ∧
  (∀ b, Reads (.andIzx b) (.mem (.izx b)) (logicNext (· &&& ·))) ∧
  (∀ b, Reads (.andIzy b) (.mem (.izy b)) (logicNext (· &&& ·))) ∧
  (∀ v, Reads (.oraImm v) (.imm v) (logicNext (· ||| ·))) ∧
  (∀ b, Reads (.oraZp b) (.mem (.zp b)) (logicNext (· ||| ·))) ∧
  (∀ b, Reads (.oraZpx b) (.mem (.zpx b)) (logicNext (· ||| ·))) ∧
  (∀ w, Reads (.oraAbs w) (.mem (.abs w)) (logicNext (· ||| ·))) ∧
  (∀ w, Reads (.oraAbx w) (.mem (.abx w)) (logicNext (· ||| ·))) ∧
  (∀ w, Reads (.oraAby w) (.mem (.aby w)) (logicNext (· ||| ·))) ∧
  (∀ b, Reads (.oraIzx b) (.mem (.izx b)) (logicNext (· ||| ·))) ∧
  (∀ b, Reads (.oraIzy b) (.mem (.izy b)) (logicNext (· ||| ·))) ∧
  (∀ v, Reads (.eorImm v) (.imm v) (logicNext (· ^^^ ·))) ∧
  (∀ b, Reads (.eorZp b) (.mem (.zp b)) (logicNext (· ^^^ ·))) ∧
  (∀ b, Reads (.eorZpx b) (.mem (.zpx b)) (logicNext (· ^^^ ·))) ∧
  (∀ w, Reads (.eorAbs w) (.mem (.abs w)) (logicNext (· ^^^ ·))) ∧
  (∀ w, Reads (.eorAbx w) (.mem (.abx w)) (logicNext (· ^^^ ·))) ∧
  (∀ w, Reads (.eorAby w) (.mem (.aby w)) (logicNext (· ^^^ ·))) ∧
  (∀ b, Reads (.eorIzx b) (.mem (.izx b)) (logicNext (· ^^^ ·))) ∧
  (∀ b, Reads (.eorIzy b) (.mem (.izy b)) (logicNext (· ^^^ ·)))

/-- For every form of CMP (8), CPX (3) and CPY (3) and every state in which the bus services the reads the form makes,
exec gives the next state in which P is the compare of the register with the operand byte, the reads are noted, and
nothing else is changed. The opcode bytes and mode sets are the spec's own supply (93 G1; log entry 7).
(41_alu_arithmetic_logic_compare.md R137 to R139) -/
def Obligations.ComparesComplete : Prop :=
  (∀ v, Reads (.cmpImm v) (.imm v) (fun m t => t.setP (compareFlags t.p t.a m))) ∧
  (∀ b, Reads (.cmpZp b) (.mem (.zp b)) (fun m t => t.setP (compareFlags t.p t.a m))) ∧
  (∀ b, Reads (.cmpZpx b) (.mem (.zpx b)) (fun m t => t.setP (compareFlags t.p t.a m))) ∧
  (∀ w, Reads (.cmpAbs w) (.mem (.abs w)) (fun m t => t.setP (compareFlags t.p t.a m))) ∧
  (∀ w, Reads (.cmpAbx w) (.mem (.abx w)) (fun m t => t.setP (compareFlags t.p t.a m))) ∧
  (∀ w, Reads (.cmpAby w) (.mem (.aby w)) (fun m t => t.setP (compareFlags t.p t.a m))) ∧
  (∀ b, Reads (.cmpIzx b) (.mem (.izx b)) (fun m t => t.setP (compareFlags t.p t.a m))) ∧
  (∀ b, Reads (.cmpIzy b) (.mem (.izy b)) (fun m t => t.setP (compareFlags t.p t.a m))) ∧
  (∀ v, Reads (.cpxImm v) (.imm v) (fun m t => t.setP (compareFlags t.p t.x m))) ∧
  (∀ b, Reads (.cpxZp b) (.mem (.zp b)) (fun m t => t.setP (compareFlags t.p t.x m))) ∧
  (∀ w, Reads (.cpxAbs w) (.mem (.abs w)) (fun m t => t.setP (compareFlags t.p t.x m))) ∧
  (∀ v, Reads (.cpyImm v) (.imm v) (fun m t => t.setP (compareFlags t.p t.y m))) ∧
  (∀ b, Reads (.cpyZp b) (.mem (.zp b)) (fun m t => t.setP (compareFlags t.p t.y m))) ∧
  (∀ w, Reads (.cpyAbs w) (.mem (.abs w)) (fun m t => t.setP (compareFlags t.p t.y m)))

/-- For both forms of BIT and every state in which the bus services the reads the form makes, exec gives the next
state in which Z tells whether A AND M is zero, V is bit 6 and N bit 7 of M, the reads are noted, and nothing else is
changed. The opcode bytes and mode sets are the spec's own supply (93 G1; log entry 7).
(41_alu_arithmetic_logic_compare.md R140) -/
def Obligations.BitCompletes : Prop :=
  (∀ b, Reads (.bitZp b) (.mem (.zp b)) (fun m t => t.setP
    (putFlag (putFlag (putFlag t.p .z (t.a &&& m == 0)) .v (m.getLsbD 6)) .n (m.getLsbD 7)))) ∧
  (∀ w, Reads (.bitAbs w) (.mem (.abs w)) (fun m t => t.setP
    (putFlag (putFlag (putFlag t.p .z (t.a &&& m == 0)) .v (m.getLsbD 6)) .n (m.getLsbD 7))))

/-- For every form of STA (7), STX (3) and STY (3) and every state in which the bus services the pointer reads and the
write, exec gives the next state in which the register's byte is written to the effective address, the pointer reads
and the write are noted, and nothing else is changed. The stores are the spec's decision D8 (log entry 14). The opcode
bytes and mode sets are the spec's own supply (93 G1; log entry 7). (45_load_store_transfer.md R203 to R205;
40_execution_and_addressing.md R117) -/
def Obligations.StoresComplete : Prop :=
  (∀ b, Stores (.staZp b) (.zp b) State.a) ∧
  (∀ b, Stores (.staZpx b) (.zpx b) State.a) ∧
  (∀ w, Stores (.staAbs w) (.abs w) State.a) ∧
  (∀ w, Stores (.staAbx w) (.abx w) State.a) ∧
  (∀ w, Stores (.staAby w) (.aby w) State.a) ∧
  (∀ b, Stores (.staIzx b) (.izx b) State.a) ∧
  (∀ b, Stores (.staIzy b) (.izy b) State.a) ∧
  (∀ b, Stores (.stxZp b) (.zp b) State.x) ∧
  (∀ b, Stores (.stxZpy b) (.zpy b) State.x) ∧
  (∀ w, Stores (.stxAbs w) (.abs w) State.x) ∧
  (∀ b, Stores (.styZp b) (.zp b) State.y) ∧
  (∀ b, Stores (.styZpx b) (.zpx b) State.y) ∧
  (∀ w, Stores (.styAbs w) (.abs w) State.y)

/-- For every memory form of ASL, LSR, ROL and ROR (4 each) and every state in which the bus services the form's reads
and its write, exec gives the next state in which the shifted or rotated byte is written to the cell, C is the bit
shifted out, Z and N are set from the new byte, A is untouched, the accesses are noted, and nothing else is changed.
One read and one write of the cell is the spec's decision D10 (log entry 16). The opcode bytes and mode sets are the
spec's own supply (93 G1; log entry 7). (42_shift_rotate_incdec.md R150 to R154) -/
def Obligations.MemoryShiftsComplete : Prop :=
  (∀ b, Modifies (.aslZp b) (.zp b) aslValue aslFlags) ∧
  (∀ b, Modifies (.aslZpx b) (.zpx b) aslValue aslFlags) ∧
  (∀ w, Modifies (.aslAbs w) (.abs w) aslValue aslFlags) ∧
  (∀ w, Modifies (.aslAbx w) (.abx w) aslValue aslFlags) ∧
  (∀ b, Modifies (.lsrZp b) (.zp b) lsrValue lsrFlags) ∧
  (∀ b, Modifies (.lsrZpx b) (.zpx b) lsrValue lsrFlags) ∧
  (∀ w, Modifies (.lsrAbs w) (.abs w) lsrValue lsrFlags) ∧
  (∀ w, Modifies (.lsrAbx w) (.abx w) lsrValue lsrFlags) ∧
  (∀ b, Modifies (.rolZp b) (.zp b) rolValue rolFlags) ∧
  (∀ b, Modifies (.rolZpx b) (.zpx b) rolValue rolFlags) ∧
  (∀ w, Modifies (.rolAbs w) (.abs w) rolValue rolFlags) ∧
  (∀ w, Modifies (.rolAbx w) (.abx w) rolValue rolFlags) ∧
  (∀ b, Modifies (.rorZp b) (.zp b) rorValue rorFlags) ∧
  (∀ b, Modifies (.rorZpx b) (.zpx b) rorValue rorFlags) ∧
  (∀ w, Modifies (.rorAbs w) (.abs w) rorValue rorFlags) ∧
  (∀ w, Modifies (.rorAbx w) (.abx w) rorValue rorFlags)

/-- For ASL A, LSR A, ROL A and ROR A and every state, exec gives the next state in which A is the shifted or rotated
byte, C the bit shifted out, Z and N set from the new byte, and nothing else is changed. The opcode bytes and mode
sets are the spec's own supply (93 G1; log entry 7). (42_shift_rotate_incdec.md R150 to R154) -/
def Obligations.AccumulatorShiftsComplete : Prop :=
  ∀ s : State,
    exec .aslAcc s = .next ((s.setA (aslValue s.a s.p)).setP (aslFlags s.a s.p)) ∧
    exec .lsrAcc s = .next ((s.setA (lsrValue s.a s.p)).setP (lsrFlags s.a s.p)) ∧
    exec .rolAcc s = .next ((s.setA (rolValue s.a s.p)).setP (rolFlags s.a s.p)) ∧
    exec .rorAcc s = .next ((s.setA (rorValue s.a s.p)).setP (rorFlags s.a s.p))

/-- For every form of INC and DEC (4 each) and every state in which the bus services the form's reads and its write,
exec gives the next state in which the old byte plus or minus one modulo 256 is written to the cell, Z and N are set
from it, the accesses are noted, and nothing else is changed. One read and one write of the cell is the spec's
decision D10 (log entry 16). The opcode bytes and mode sets are the spec's own supply (93 G1; log entry 7).
(42_shift_rotate_incdec.md R154 to R156) -/
def Obligations.IncDecMemoryComplete : Prop :=
  (∀ b, Modifies (.incZp b) (.zp b) (fun old _ => old + 1) (fun old p => zn p (old + 1))) ∧
  (∀ b, Modifies (.incZpx b) (.zpx b) (fun old _ => old + 1) (fun old p => zn p (old + 1))) ∧
  (∀ w, Modifies (.incAbs w) (.abs w) (fun old _ => old + 1) (fun old p => zn p (old + 1))) ∧
  (∀ w, Modifies (.incAbx w) (.abx w) (fun old _ => old + 1) (fun old p => zn p (old + 1))) ∧
  (∀ b, Modifies (.decZp b) (.zp b) (fun old _ => old - 1) (fun old p => zn p (old - 1))) ∧
  (∀ b, Modifies (.decZpx b) (.zpx b) (fun old _ => old - 1) (fun old p => zn p (old - 1))) ∧
  (∀ w, Modifies (.decAbs w) (.abs w) (fun old _ => old - 1) (fun old p => zn p (old - 1))) ∧
  (∀ w, Modifies (.decAbx w) (.abx w) (fun old _ => old - 1) (fun old p => zn p (old - 1)))

/-- INX is the byte 0xE8, implied mode. In every state exec gives the next state with X one higher modulo 256 and Z
and N set from it; no other flag, no register, no memory changes and the bus sees nothing; X = 0xFF gives X = 0x00
with Z = 1 and N = 0. (R157) -/
def Obligations.InxRule : Prop :=
  decode [0xE8] = .ok (.inx, []) ∧ modeOf .inx = some .imp ∧
  ∀ s : State,
    exec .inx s = .next { s with x := BitVec.ofNat 8 (s.x.toNat + 1), p := zn s.p (BitVec.ofNat 8 (s.x.toNat + 1)) } ∧
    (∀ f, f ≠ .z → f ≠ .n → getFlag (zn s.p (BitVec.ofNat 8 (s.x.toNat + 1))) f = getFlag s.p f) ∧
    (s.x = 0xFF → ∃ t, exec .inx s = .next t ∧ t.x = 0x00 ∧ getFlag t.p .z = true ∧ getFlag t.p .n = false)

/-- In every state exec of each of the four gives the next state with the register one higher or lower modulo 256, Z
and N set from it, and nothing else changed. The opcode bytes and mode sets are the spec's own supply (93 G1; log
entry 7). (42_shift_rotate_incdec.md R157 to R160) -/
def Obligations.IndexStepsComplete : Prop :=
  ∀ s : State,
    exec .inx s = .next ((s.setX (s.x + 1)).setP (zn s.p (s.x + 1))) ∧
    exec .iny s = .next ((s.setY (s.y + 1)).setP (zn s.p (s.y + 1))) ∧
    exec .dex s = .next ((s.setX (s.x - 1)).setP (zn s.p (s.x - 1))) ∧
    exec .dey s = .next ((s.setY (s.y - 1)).setP (zn s.p (s.y - 1)))

/-- In every state exec of each of the seven gives the next state in which the flag has its new value, the other seven
bits of P are as they were, and nothing but P is changed. Which flag a mnemonic names is the spec's supply (93 G5; log
entry 7). (43_flag_instructions.md R170 to R176) -/
def Obligations.FlagInstructionsComplete : Prop :=
  ∀ s : State,
    WritesFlag .clc s .c false ∧ WritesFlag .sec s .c true ∧ WritesFlag .cli s .i false ∧ WritesFlag .sei s .i true ∧
    WritesFlag .cld s .d false ∧ WritesFlag .sed s .d true ∧ WritesFlag .clv s .v false

/-- In every state exec of each of the six gives the next state with the destination holding the source register, Z
and N set from it (no flag for TXS), and nothing else changed. The flag effects are the spec's decision D7 (log entry
9). (45_load_store_transfer.md R206 to R209; 44_stack_and_subroutine.md R186, R187) -/
def Obligations.TransfersComplete : Prop :=
  ∀ s : State,
    exec .tax s = .next ((s.setX s.a).setP (zn s.p s.a)) ∧ exec .tay s = .next ((s.setY s.a).setP (zn s.p s.a)) ∧
    exec .txa s = .next ((s.setA s.x).setP (zn s.p s.x)) ∧ exec .tya s = .next ((s.setA s.y).setP (zn s.p s.y)) ∧
    exec .tsx s = .next ((s.setX s.sp).setP (zn s.p s.sp)) ∧ exec .txs s = .next (s.setSp s.x)

/-- When the bus services the write at 0x0100 + SP, exec of PHA (PHP) gives the next state in which A (P with bits 4
and 5 set) is written to that cell, SP is one lower modulo 256, the write is noted, and nothing else is changed. That
both bits are 1 is the spec's decision D4 (log entry 6). (44_stack_and_subroutine.md R180, R182, R184) -/
def Obligations.PushInstructionsComplete : Prop :=
  ∀ s : State,
    (s.services (.write (0x0100 + zext16 s.sp) s.a) = true →
      exec .pha s = .next ((s.store (0x0100 + zext16 s.sp) s.a).setSp (s.sp - 1))) ∧
    (s.services (.write (0x0100 + zext16 s.sp) (s.p ||| 0x30)) = true →
      exec .php s = .next ((s.store (0x0100 + zext16 s.sp) (s.p ||| 0x30)).setSp (s.sp - 1)))

/-- When the bus services the read at 0x0100 + (SP + 1), exec of PLA gives the next state in which A holds that cell
and Z and N are set from it, and exec of PLP the one in which P is that cell; SP is one higher modulo 256, the read is
noted, and nothing else is changed. PLA's flags are the spec's decision D7 (log entry 9). (44_stack_and_subroutine.md
R181, R183, R185) -/
def Obligations.PullInstructionsComplete : Prop :=
  ∀ s : State, s.services (.read (0x0100 + zext16 (s.sp + 1))) = true →
    let a := 0x0100 + zext16 (s.sp + 1)
    let v := s.busByte a
    exec .pla s = .next ((((s.recordReads [a]).setSp (s.sp + 1)).setA v).setP (zn s.p v)) ∧
    exec .plp s = .next (((s.recordReads [a]).setSp (s.sp + 1)).setP v)

/-- With PC past the three bytes and the bus servicing both writes, exec of JSR to w gives the next state in which the
high byte of PC - 1 is written to 0x0100 + SP and then the low byte to 0x0100 + (SP - 1), SP is two lower modulo 256,
PC is w, the writes are noted in that order, and nothing else is changed. (44_stack_and_subroutine.md R180, R188) -/
def Obligations.JsrCompletes : Prop :=
  ∀ (w : Word) (s : State),
    s.servicesAll [.write (0x0100 + zext16 s.sp) (hi8 (s.pc - 1)),
      .write (0x0100 + zext16 (s.sp - 1)) (lo8 (s.pc - 1))] = true →
    exec (.jsr w) s = .next ((((s.store (0x0100 + zext16 s.sp) (hi8 (s.pc - 1))).store
      (0x0100 + zext16 (s.sp - 1)) (lo8 (s.pc - 1))).setSp (s.sp - 2)).setPc w)

/-- When the bus services the reads of the pulled cells: exec of RTS gives the next state with PC one past the pulled
word modulo 65536 and SP two higher; exec of RTI the one with P the first pulled byte verbatim, PC the word pulled
after it, and SP three higher; the reads are noted in order and nothing else is changed. RTI is the spec's decision D5
(log entry 8), RTS's order D22 (log entry 15). (44_stack_and_subroutine.md R181, R189, R190) -/
def Obligations.ReturnsComplete : Prop :=
  ∀ s : State,
    let a1 := 0x0100 + zext16 (s.sp + 1)
    let a2 := 0x0100 + zext16 (s.sp + 2)
    let a3 := 0x0100 + zext16 (s.sp + 3)
    (s.servicesReads [a1, a2] = true →
      exec .rts s = .next (((s.recordReads [a1, a2]).setSp (s.sp + 2)).setPc
        (wordOf ((s.recordReads [a1]).busByte a2) (s.busByte a1) + 1))) ∧
    (s.servicesReads [a1, a2, a3] = true →
      exec .rti s = .next ((((s.recordReads [a1, a2, a3]).setSp (s.sp + 3)).setP (s.busByte a1)).setPc
        (wordOf ((s.recordReads [a1, a2]).busByte a3) ((s.recordReads [a1]).busByte a2))))

/-- Exec of JMP w gives the next state with PC w. Exec of JMP (w), when the bus services both pointer reads, gives the
next state with PC the word whose low byte is at w and whose high byte is at the address with w's high byte and w's
low byte plus one modulo 256; the two reads are noted in that order; nothing else is changed. (46_control_flow.md
R220; 40_execution_and_addressing.md R110, R115) -/
def Obligations.JumpsComplete : Prop :=
  ∀ (w : Word) (s : State),
    exec (.jmpAbs w) s = .next (s.setPc w) ∧
    (s.servicesReads [w, wordOf (hi8 w) (lo8 w + 1)] = true →
      exec (.jmpInd w) s = .next ((s.recordReads [w, wordOf (hi8 w) (lo8 w + 1)]).setPc
        (wordOf ((s.recordReads [w]).busByte (wordOf (hi8 w) (lo8 w + 1))) (s.busByte w))))

/-- With PC past the two bytes, exec of each branch gives the next state in which PC is moved by the offset read as a
two's-complement byte, modulo 65536, when the branch's flag has the branch's value, and the state unchanged otherwise;
no flag, register or memory changes. The conditions are the spec's decision D6 and the two's-complement offset its
decision D29, both from general knowledge, which the model presumes (log entry 13). (46_control_flow.md R221 to R229;
40_execution_and_addressing.md R116) -/
def Obligations.BranchesComplete : Prop :=
  ∀ (off : Byte) (s : State),
    let target := s.setPc (BitVec.ofInt 16 (s.pc.toNat + off.toInt))
    exec (.bpl off) s = .next (if getFlag s.p .n = false then target else s) ∧
    exec (.bmi off) s = .next (if getFlag s.p .n = true then target else s) ∧
    exec (.bvc off) s = .next (if getFlag s.p .v = false then target else s) ∧
    exec (.bvs off) s = .next (if getFlag s.p .v = true then target else s) ∧
    exec (.bcc off) s = .next (if getFlag s.p .c = false then target else s) ∧
    exec (.bcs off) s = .next (if getFlag s.p .c = true then target else s) ∧
    exec (.bne off) s = .next (if getFlag s.p .z = false then target else s) ∧
    exec (.beq off) s = .next (if getFlag s.p .z = true then target else s)

/-- In every state exec of NOP gives the state itself, exec of HLT the state with the run state Halted, and exec of a
byte with no entry the state Faulted with a decode failure of that byte at PC - 1, the address it was fetched from
(log entry 11). That PC stays one past the byte after HLT is the spec's decision D17 (log entry 21), and the Faulted
run state with its record is D11 (log entry 10). (46_control_flow.md R230, R231; 60_exceptions.md R241) -/
def Obligations.NopHltIllegalComplete : Prop :=
  ∀ s : State,
    exec .nop s = .next s ∧ exec .hlt s = .next { s with run := .halted } ∧
    ∀ op : Byte, exec (.illegal op) s = .next { s with run := .faulted (.decodeFailure op (s.pc - 1)) }

/-- For every status byte and every v: after SetZN, Z is 1 exactly when v is 0x00, N is bit 7 of v, the other six bits
are unchanged, Z and N are never both 1; the new bits depend on v alone; as an operation on the state it changes P
only. The worked values 0x00, 0x80 and 0x7F are instances, stated too. (R27) -/
def Obligations.SetZnRule : Prop :=
  (∀ p v : Byte,
    (getFlag (zn p v) .z = true ↔ v = 0x00) ∧ (getFlag (zn p v) .n = v.getLsbD 7) ∧
    (∀ f, f ≠ .z → f ≠ .n → getFlag (zn p v) f = getFlag p f) ∧
    ¬(getFlag (zn p v) .z = true ∧ getFlag (zn p v) .n = true) ∧
    (∀ p', getFlag (zn p v) .z = getFlag (zn p' v) .z ∧ getFlag (zn p v) .n = getFlag (zn p' v) .n)) ∧
  (∀ (s : State) (v : Byte), s.setZN v = { s with p := zn s.p v }) ∧
  (∀ p : Byte,
    getFlag (zn p 0x00) .z = true ∧ getFlag (zn p 0x00) .n = false ∧
    getFlag (zn p 0x80) .z = false ∧ getFlag (zn p 0x80) .n = true ∧
    getFlag (zn p 0x7F) .z = false ∧ getFlag (zn p 0x7F) .n = false)

/-- For all bytes a, m and bit c, with sum = a + m + c in the integers (at most 511): the result byte is the sum
modulo 256; carry out exactly when the sum exceeds 0xFF, which is bit 8 of it; overflow is the given bit formula,
exactly when a and m share bit 7 and the result's differs, and exactly when the sum of the signed readings plus c lies
outside -128 to 127. (R130) -/
def Obligations.AdderRule : Prop :=
  ∀ (a m : Byte) (c : Bool),
    let sum := a.toNat + m.toNat + c.toNat
    let q := addWithCarry a m c
    sum ≤ 511 ∧ q.r.toNat = sum % 256 ∧ (q.cout = true ↔ sum > 0xFF) ∧ q.cout = sum.testBit 8 ∧
    q.vout = (((a ^^^ q.r) &&& (m ^^^ q.r) &&& 0x80) != 0) ∧
    (q.vout = true ↔ a.getLsbD 7 = m.getLsbD 7 ∧ q.r.getLsbD 7 ≠ a.getLsbD 7) ∧
    (q.vout = true ↔ a.toInt + m.toInt + c.toNat < -128 ∨ a.toInt + m.toInt + c.toNat > 127)

/-- For every status byte, register value r and operand m: C is 1 exactly when r >= m as unsigned values, Z exactly
when r = m, N is bit 7 of r - m modulo 256; C = 1 with Z = 0 exactly when r > m, C = 0 exactly when r < m; V, D, I, B
and bit 5 are unchanged; the incoming carry makes no difference; N is not the signed order (0x80 against 0x01 gives N
= 0). The three compares write P only, so the register is unchanged. (R136) -/
def Obligations.CompareRule : Prop :=
  (∀ p r m : Byte,
    let q := compareFlags p r m
    (getFlag q .c = true ↔ m.toNat ≤ r.toNat) ∧ (getFlag q .z = true ↔ r = m) ∧
    (getFlag q .n = (BitVec.ofInt 8 ((r.toNat : Int) - m.toNat)).getLsbD 7) ∧
    (getFlag q .c = true ∧ getFlag q .z = false ↔ m.toNat < r.toNat) ∧ (getFlag q .c = false ↔ r.toNat < m.toNat) ∧
    (∀ f, f ≠ .c → f ≠ .z → f ≠ .n → getFlag q f = getFlag p f) ∧
    (∀ c, compareFlags (putFlag p .c c) r m = q)) ∧
  (∀ p : Byte, getFlag (compareFlags p 0x80 0x01) .n = false) ∧
  (∀ (s : State) (m : Byte),
    exec (.cmpImm m) s = .next { s with p := compareFlags s.p s.a m } ∧
    exec (.cpxImm m) s = .next { s with p := compareFlags s.p s.x m } ∧
    exec (.cpyImm m) s = .next { s with p := compareFlags s.p s.y m })

/-- For every state and operand byte, exec of SBC immediate gives the next state with A = A - M - (1 - C) modulo 256,
C = 1 exactly when that difference of the unsigned values is not negative, and V = 1 exactly when the difference of
the signed readings lies outside -128 to 127. (41_alu_arithmetic_logic_compare.md R132) -/
def Obligations.SbcArithmetic : Prop :=
  ∀ (s : State) (m : Byte),
    let borrow : Int := if getFlag s.p .c then 0 else 1
    ∃ t, exec (.sbcImm m) s = .next t ∧
      t.a = BitVec.ofInt 8 (s.a.toNat - m.toNat - borrow) ∧
      (getFlag t.p .c = true ↔ (s.a.toNat : Int) - m.toNat - borrow ≥ 0) ∧
      (getFlag t.p .v = true ↔ s.a.toInt - m.toInt - borrow < -128 ∨ s.a.toInt - m.toInt - borrow > 127)

/-- For every state and byte b: if ADC immediate b gives t, then SBC immediate b from t, with the carry set to the
complement of the carry ADC came in with, gives a state whose A is the first state's.
(41_alu_arithmetic_logic_compare.md R131, R132; 95_test_vectors.md T5) -/
def Obligations.SbcUndoesAdc : Prop :=
  ∀ (s t : State) (b : Byte), exec (.adcImm b) s = .next t →
    ∃ u, exec (.sbcImm b) (t.setFlag .c (!getFlag s.p .c)) = .next u ∧ u.a = s.a

/-- For every instruction but PHP (which pushes P, and whose result PushInstructionsComplete states) that does not
itself write the bit (PLP, RTI, and the flag instructions of that bit), every state, every one of I, D, B and bit 5
and either value: executing with the bit set to that value gives what executing without it gives, with the bit set to
that value. So ADC and SBC are binary whatever D is. That they are inert is the spec's decisions D18 and D19 (log
entry 20). (10_state.md R19 to R22; 41_alu_arithmetic_logic_compare.md R141; 60_exceptions.md R246) -/
def Obligations.InertFlags : Prop :=
  ∀ (i : Instr) (s : State) (f : Flag) (b : Bool), f ∈ [Flag.i, Flag.d, Flag.b, Flag.u] → f ∉ flagsOf i →
    mnemonicOf i ≠ some .php → exec i (s.setFlag f b) = onNext (fun t => t.setFlag f b) (exec i s)

/-- If two states are equal but for the accesses noted so far, and how their bus deals with a request does not depend
on those and is no device's, their steps end alike, and their next states are equal but for the accesses noted. That a
bus's own state is what it has seen is the model's form of it (log entries 1 and 3). (10_state.md R30; 20_memory.md
R47, R52) -/
def Obligations.TraceInert : Prop :=
  ∀ s s' : State, s.bus.stateless → s.unseen = s'.unseen →
    onNext State.unseen (step s) = onNext State.unseen (step s')

/-- For every state and operand: ZP gives the byte, ZPX and ZPY the byte plus X or Y modulo 256, ABS the word, ABX and
ABY the word plus X or Y modulo 65536; the resolver makes no access and changes nothing. The wrap past 0xFFFF is the
spec's decision D9 (log entry 15). (40_execution_and_addressing.md R107 to R112; 20_memory.md R57) -/
def Obligations.AddressArithmetic : Prop :=
  ∀ (opAt w : Word) (b : Byte) (s : State),
    ResolvesTo (resolve opAt (.zp b) s) b.toNat s ∧
    ResolvesTo (resolve opAt (.zpx b) s) ((b.toNat + s.x.toNat) % 256) s ∧
    ResolvesTo (resolve opAt (.zpy b) s) ((b.toNat + s.y.toNat) % 256) s ∧
    ResolvesTo (resolve opAt (.abs w) s) w.toNat s ∧
    ResolvesTo (resolve opAt (.abx w) s) ((w.toNat + s.x.toNat) % 65536) s ∧
    ResolvesTo (resolve opAt (.aby w) s) ((w.toNat + s.y.toNat) % 65536) s

/-- For every state, operand and bus that services the two pointer reads: IZX reads at byte plus X modulo 256 and the
next modulo 256; IZY at the byte and the next modulo 256, then adds Y modulo 65536; IND at the word and at the word
with its low byte plus one modulo 256 in the same page; the address is low byte plus 256 times high byte, low byte
read first. IZY's wrap past 0xFFFF is the spec's decision D9 (log entry 15). (40_execution_and_addressing.md R113 to
R115; 20_memory.md R43, R57) -/
def Obligations.PointerArithmetic : Prop :=
  ∀ (opAt w : Word) (b : Byte) (s : State),
    (∀ lo hi : Word, lo.toNat = (b.toNat + s.x.toNat) % 256 → hi.toNat = (b.toNat + s.x.toNat + 1) % 256 →
      s.servicesReads [lo, hi] = true →
      ResolvesTo (resolve opAt (.izx b) s) ((s.busByte lo).toNat + 256 * ((s.recordReads [lo]).busByte hi).toNat)
        (s.recordReads [lo, hi])) ∧
    (∀ lo hi : Word, lo.toNat = b.toNat → hi.toNat = (b.toNat + 1) % 256 →
      s.servicesReads [lo, hi] = true →
      ResolvesTo (resolve opAt (.izy b) s)
        (((s.busByte lo).toNat + 256 * ((s.recordReads [lo]).busByte hi).toNat + s.y.toNat) % 65536)
        (s.recordReads [lo, hi])) ∧
    (∀ hi : Word, hi.toNat = w.toNat / 256 * 256 + (w.toNat + 1) % 256 →
      s.servicesReads [w, hi] = true →
      ResolvesTo (resolve opAt (.ind w) s) ((s.busByte w).toNat + 256 * ((s.recordReads [w]).busByte hi).toNat)
        (s.recordReads [w, hi]))

/-- For every state and byte: when the bus services the write of the byte at 0x0100 plus SP's value before, it is
written there, SP is one lower modulo 256 (0x00 becomes 0xFF) and only that write is noted; when the bus refuses it,
an addressing failure is raised and SP is unchanged. The two worked examples (SP = 0xFF and SP = 0x00, byte 0x42) are
stated too, for a cell of plain memory. (R180) -/
def Obligations.PushRule : Prop :=
  (∀ (opAt : Word) (v : Byte) (s : State),
    (s.services (.write (0x0100 + zext16 s.sp) v) = true →
      push8 opAt v s = .done () ((s.store (0x0100 + zext16 s.sp) v).setSp (BitVec.ofInt 8 (s.sp.toNat - 1)))) ∧
    (s.services (.write (0x0100 + zext16 s.sp) v) = false →
      push8 opAt v s = .raised (s.setRun (.faulted (.addressingFailure (0x0100 + zext16 s.sp) .write opAt))))) ∧
  (∀ (opAt : Word) (s : State), s.sp = 0xFF → s.bus.plainAt 0x01FF →
    ∃ t, push8 opAt 0x42 s = .done () t ∧ t.mem.read 0x01FF = 0x42 ∧ t.sp = 0xFE) ∧
  (∀ (opAt : Word) (s : State), s.sp = 0x00 → s.bus.plainAt 0x0100 →
    ∃ t, push8 opAt 0x42 s = .done () t ∧ t.mem.read 0x0100 = 0x42 ∧ t.sp = 0xFF)

/-- For every state: when the bus services the read at 0x0100 plus the incremented SP, the byte there is returned, SP
is one higher modulo 256, only that read is noted and memory is unchanged; when the bus refuses it, an addressing
failure is raised and SP is already incremented, which is the spec's decision D12 (log entry 10).
(44_stack_and_subroutine.md R181; 60_exceptions.md R243) -/
def Obligations.PullRule : Prop :=
  ∀ (opAt : Word) (s : State),
    let a := 0x0100 + zext16 (s.sp + 1)
    (s.services (.read a) = true → pull8 opAt s = .done (s.busByte a) ((s.recordReads [a]).setSp (s.sp + 1))) ∧
    (s.services (.read a) = false →
      pull8 opAt s = .raised ((s.setSp (s.sp + 1)).setRun (.faulted (.addressingFailure a .read opAt))))

/-- For every SP the stack address is 0x0100 + SP and lies in 0x0100 to 0x01FF; different SP give different addresses;
and every address a push, pull, call or return accesses is one of them. (44_stack_and_subroutine.md R191; 10_state.md
R14) -/
def Obligations.StackStaysInPageOne : Prop :=
  (∀ sp : Byte, (stackAddr sp).toNat = 0x0100 + sp.toNat) ∧
  (∀ (i : Instr) (s : State) (q : BusRequest),
    mnemonicOf i ∈ [some .pha, some .php, some .pla, some .plp, some .jsr, some .rts, some .rti] →
    q ∈ accesses i s → 0x0100 ≤ q.addr.toNat ∧ q.addr.toNat ≤ 0x01FF)

/-- For every state whose cell at SP is plain memory, whatever the bus has seen, and every byte: pushing it and then
pulling gives the byte, SP as it was, and every other cell as it was. (44_stack_and_subroutine.md R191;
95_test_vectors.md T7) -/
def Obligations.PushThenPull : Prop :=
  ∀ (opAt opAt' : Word) (v : Byte) (s : State), s.bus.plainAt (stackAddr s.sp) →
    ∃ t u, push8 opAt v s = .done () t ∧ pull8 opAt' t = .done v u ∧ u.sp = s.sp ∧
      ∀ a, a ≠ stackAddr s.sp → u.mem.read a = s.mem.read a

/-- For every state with PC past a JSR, whose two cells for the return address are plain memory, whatever the bus has
seen, and every target: if JSR gives t, then RTS executed from t, wherever its own PC stands, gives a state with the
PC and the SP that JSR started from. (44_stack_and_subroutine.md R188, R189, R191; 95_test_vectors.md T8) -/
def Obligations.JsrThenRtsReturns : Prop :=
  ∀ (w pc' : Word) (s : State),
    s.bus.plainAt (stackAddr s.sp) → s.bus.plainAt (stackAddr (s.sp - 1)) →
    ∃ t u, exec (.jsr w) s = .next t ∧ exec .rts (t.setPc pc') = .next u ∧ u.pc = s.pc ∧ u.sp = s.sp

/-- For every state whose cell at SP is plain memory, whatever the bus has seen: PHP and then PLP give a state with P
OR 0x30 and the SP it started from. The forced bits are the spec's decision D4 (log entry 6).
(44_stack_and_subroutine.md R184, R185; 70_reset_and_hazards.md R281) -/
def Obligations.PhpThenPlpSetsBits : Prop :=
  ∀ s : State, s.bus.plainAt (stackAddr s.sp) →
    ∃ t u, exec .php s = .next t ∧ exec .plp t = .next u ∧ u.p = s.p ||| 0x30 ∧ u.sp = s.sp

/-- For every state with plain memory at the address, whatever the bus has seen: STA to it and then LDA of it, with
anything in A between, gives the stored byte in A; and the byte a fetch at that address reads is the stored byte. The
stores are the spec's decision D8 (log entry 14). (20_memory.md R52, R55; 45_load_store_transfer.md R200, R203) -/
def Obligations.StoreThenLoad : Prop :=
  ∀ (w : Word) (s : State) (v : Byte), s.bus.plainAt w →
    ∃ t u, exec (.staAbs w) s = .next t ∧ exec (.ldaAbs w) (t.setA v) = .next u ∧ u.a = s.a ∧
      ∀ opAt, ∃ q, fetch8 opAt (t.setPc w) = .done s.a q

/-- Reset(start) of any state, Halted and Faulted included: A, X, Y, SP and P zero, PC the start address, Running,
memory and bus untouched. Create gives the same with PC 0x0000. State.reset is reset with nothing loaded at the
default start 0x0000: memory of 0x00, plain memory for every request, the spec's default platform and fill (decision
D13, log entry 2). That P (bit 5 and I included) and SP are 0x00 is the spec's decision D16 (conflict C1, log entry
19), and that Create and Reset are the host's operations its decision D15 (log entry 17). (10_state.md R31;
70_reset_and_hazards.md R270, R272; 20_memory.md R50) -/
def Obligations.ResetState : Prop :=
  (∀ (s : State) (start : Word), s.resetTo start = { s with
    a := 0x00, x := 0x00, y := 0x00, sp := 0x00, p := 0x00, pc := start, run := .running }) ∧
  (∀ (m : Memory) (b : Bus), State.create m b =
    { a := 0, x := 0, y := 0, sp := 0, p := 0, pc := 0, run := .running, mem := m, bus := b, trace := [] }) ∧
  State.reset.resetTo 0x0000 = State.reset ∧ State.create [] Bus.flatRam64K = State.reset ∧
  (∀ a : Word, State.reset.mem.read a = 0x00) ∧ (∀ seen q, State.reset.bus.reply seen q = .memory)

/-- For all launch parameters: there is a launched state exactly when base plus length is at most 65536; then image
byte i is at base + i, on the default platform every other cell holds the fill and plain memory serves every request,
on ImageOnly memory serves the reads of the image's cells and every other request is refused; with no presets the
registers are zero, PC is the start address and the run state is Running. The default platform and its fill are the
spec's decision D13 (log entries 2 and 17), ImageOnly its decision D14, refusing an image that wraps D23, the order of
the launch D15 (all log entry 17), and the registers' zeroes D16 (log entry 19). (70_reset_and_hazards.md R273, R274;
20_memory.md R49, R50; 00_scope.md R6) -/
def Obligations.LaunchPlacesImage : Prop :=
  ∀ l : LaunchParams,
    (launch l = none ↔ l.imageBase.toNat + l.image.length > 65536) ∧
    (∀ s, launch l = some s →
      (∀ (i : Nat) (b : Byte), l.image[i]? = some b → s.mem.read (l.imageBase + BitVec.ofNat 16 i) = b) ∧
      (l.platform = .flatRam64K →
        (∀ a : Word, a.toNat < l.imageBase.toNat ∨ l.imageBase.toNat + l.image.length ≤ a.toNat →
          s.mem.read a = l.memInit) ∧ ∀ seen q, s.bus.reply seen q = .memory) ∧
      (l.platform = .imageOnly → ∀ seen (a : Word),
        (s.bus.reply seen (.read a) =
          if l.imageBase.toNat ≤ a.toNat ∧ a.toNat < l.imageBase.toNat + l.image.length then .memory else .refuse) ∧
        ∀ v, s.bus.reply seen (.write a v) = .refuse) ∧
      (l.presets = [] → s.a = 0 ∧ s.x = 0 ∧ s.y = 0 ∧ s.sp = 0 ∧ s.p = 0 ∧ s.pc = l.startPc ∧ s.run = .running))

/-- For every state and fuel: an ended state (Halted or Faulted) is given back whatever the fuel; running n + m steps
is running n and then m; of a Running state the first unit of fuel is one step; an ended state is one that is not
Running, and success is Halted. Running under a bound is the model's form of Run (log entry 18), that an ended state
has no step, and so stays, is the spec's decision D17 (log entry 4), and so is that a run ends with Halted or Faulted
and succeeded exactly when Halted (log entry 21). (40_execution_and_addressing.md R119, R120; 60_exceptions.md R256)
-/
def Obligations.RunStopsAtEnd : Prop :=
  ∀ (s : State) (n m : Nat),
    (s.ended = true → s.runFor n = s) ∧ s.runFor (n + m) = (s.runFor n).runFor m ∧
    (s.run = .running → step s = .next (s.runFor 1)) ∧
    (s.succeeded = true ↔ s.run = .halted) ∧ (s.ended = true ↔ s.run ≠ .running)

/-- For every state, width and word: the decoder reads an instruction from the word, and the step from the state with
the word placed at PC is exec of that instruction with PC past it and the run state Running. Placing it stands for the
host's load (log entry 5). (40_execution_and_addressing.md R100; 20_memory.md R55) -/
def Obligations.PlacedInstructionRuns : Prop :=
  ∀ (s : State) (nbits w : Nat), ∃ i, decodeTableWord nbits w = some i ∧
    step (s.withFetchWord nbits w) = exec i ((s.withFetchWord nbits w).afterFetch (lengthOf i)) ∧
    (s.withFetchWord nbits w).run = .running ∧ (s.withFetchWord nbits w).pc = s.pc ∧
    (s.withFetchWord nbits w).a = s.a ∧ (s.withFetchWord nbits w).p = s.p
end

