-- ==== Sys2Proof/Laws/Bits.lean ====
section
/-! SUPPORT. Taking a word apart into bytes and putting it together again. -/

namespace Sys2Proof.Laws

open Sys2Proof.Machine

theorem toNat_wordOf (h l : Byte) : (wordOf h l).toNat = h.toNat * 256 + l.toNat := by
  rw [wordOf, BitVec.toNat_append, ← Nat.shiftLeft_add_eq_or_of_lt l.isLt, Nat.shiftLeft_eq]

theorem toNat_hi8 (w : Word) : (hi8 w).toNat = w.toNat / 256 := by
  have := w.isLt
  simp only [hi8, BitVec.extractLsb'_toNat, Nat.shiftRight_eq_div_pow]
  omega

theorem toNat_lo8 (w : Word) : (lo8 w).toNat = w.toNat % 256 := by
  simp [lo8, BitVec.extractLsb'_toNat]

@[simp] theorem wordOf_hi8_lo8 (w : Word) : wordOf (hi8 w) (lo8 w) = w := by
  apply BitVec.eq_of_toNat_eq
  rw [toNat_wordOf, toNat_hi8, toNat_lo8]
  omega

@[simp] theorem hi8_wordOf (h l : Byte) : hi8 (wordOf h l) = h := by
  apply BitVec.eq_of_toNat_eq
  rw [toNat_hi8, toNat_wordOf]
  have := l.isLt
  omega

@[simp] theorem lo8_wordOf (h l : Byte) : lo8 (wordOf h l) = l := by
  apply BitVec.eq_of_toNat_eq
  rw [toNat_lo8, toNat_wordOf]
  have := l.isLt
  omega

/-- A stack address determines the stack pointer. -/
theorem stackAddr_injective {p q : Byte} (h : stackAddr p = stackAddr q) : p = q := by
  have := congrArg lo8 h
  simpa [stackAddr] using this

end Sys2Proof.Laws
end

