-- ==== Sys2Proof/Laws/Decode.lean ====
section
/-! SUPPORT. What an entry of the opcode map is, said once for all 256 bytes: its byte, its operand bytes, its length. -/

namespace Sys2Proof.Laws

open Sys2Proof.Machine

/-- What the entry found under the byte `op` has to be (30 R74 to R76). -/
def EntryOk (op : Byte) : Option Form → Prop
  | none => isUndocumented op = true
  | some (.one i) => encode i = [op] ∧ lengthOf i = 1 ∧ wellFormed i = true
  | some (.two mk) => ∀ b, encode (mk b) = [op, b] ∧ lengthOf (mk b) = 2 ∧ wellFormed (mk b) = true
  | some (.three mk) => ∀ w, encode (mk w) = [op, lo8 w, hi8 w] ∧ lengthOf (mk w) = 3 ∧ wellFormed (mk w) = true

theorem lookup_entry_lo : ∀ n < 128, EntryOk (BitVec.ofNat 8 n) (lookup (BitVec.ofNat 8 n)) := by
  intro n hn
  interval_cases n <;>
    first
    | exact ⟨rfl, rfl, rfl⟩
    | exact fun _ => ⟨rfl, rfl, rfl⟩
    | rfl

theorem lookup_entry_hi : ∀ n < 128, EntryOk (BitVec.ofNat 8 (128 + n)) (lookup (BitVec.ofNat 8 (128 + n))) := by
  intro n hn
  interval_cases n <;>
    first
    | exact ⟨rfl, rfl, rfl⟩
    | exact fun _ => ⟨rfl, rfl, rfl⟩
    | rfl

/-- Every entry of the opcode map is right (30 R75 against R74 and R76). -/
theorem lookup_entry (op : Byte) : EntryOk op (lookup op) := by
  have h := op.isLt
  rcases Nat.lt_or_ge op.toNat 128 with hl | hg
  · simpa using lookup_entry_lo op.toNat hl
  · have := lookup_entry_hi (op.toNat - 128) (by omega)
    simpa [Nat.add_sub_cancel' hg] using this

/-- Decoding by what the opcode map holds. -/
theorem decode_cons (op : Byte) (rest : List Byte) :
    decode (op :: rest) =
      match lookup op, rest with
      | none, l => .ok (.illegal op, l)
      | some (.one i), l => .ok (i, l)
      | some (.two mk), b1 :: l => .ok (mk b1, l)
      | some (.three mk), b1 :: b2 :: l => .ok (mk (wordOf b2 b1), l)
      | some _, _ => .error (.noOperand op) := by
  rw [decode]
  rcases lookup op with _ | (i | mk | mk)
  · rfl
  · rfl
  · cases rest <;> rfl
  · rcases rest with _ | ⟨b1, _ | ⟨b2, l⟩⟩ <;> rfl

end Sys2Proof.Laws
end

