-- ==== Sys2Proof/Laws/Memory.lean ====
section
/-! SUPPORT. Memory: a read after a write, and the canonical form, which every memory operation keeps. -/

namespace Sys2Proof.Laws

open Sys2Proof.Machine

theorem cell_filter_same (m : Memory) (a : Nat) :
    Memory.cell (m.filter fun c => c.1 != a) a = Config.memInit := by
  induction m with
  | nil => rfl
  | cons c m ih =>
    by_cases h : c.1 = a
    · simpa [List.filter_cons, h] using ih
    · simpa [List.filter_cons, h, Memory.cell] using ih

theorem cell_filter_other (m : Memory) {a b : Nat} (h : b ≠ a) :
    Memory.cell (m.filter fun c => c.1 != a) b = Memory.cell m b := by
  induction m with
  | nil => rfl
  | cons c m ih =>
    by_cases hc : c.1 = a
    · have : ¬c.1 = b := fun e => h (e.symm.trans hc)
      simpa [List.filter_cons, hc, Memory.cell, Ne.symm h] using ih
    · by_cases hb : c.1 = b <;> simp [hc, Memory.cell, hb, h, ih]

theorem cell_insert_same (m : Memory) (a : Nat) (v : Byte)
    (h : ∀ c ∈ m, c.1 ≠ a) : Memory.cell (Memory.insert a v m) a = v := by
  induction m with
  | nil => simp [Memory.insert, Memory.cell]
  | cons c m ih =>
    have hc : c.1 ≠ a := h c (by simp)
    by_cases hl : a < c.1
    · simp [Memory.insert, Memory.cell, hl]
    · simpa [Memory.insert, Memory.cell, hl, hc] using ih fun d hd => h d (by simp [hd])

theorem cell_insert_other (m : Memory) {a b : Nat} (v : Byte) (h : b ≠ a) :
    Memory.cell (Memory.insert a v m) b = Memory.cell m b := by
  induction m with
  | nil => simp [Memory.insert, Memory.cell, Ne.symm h]
  | cons c m ih =>
    obtain ⟨k, x⟩ := c
    by_cases hl : a < k
    · simp [Memory.insert, Memory.cell, hl, Ne.symm h]
    · simp [Memory.insert, Memory.cell, hl, ih]

theorem cell_put_same (m : Memory) (a : Nat) (v : Byte) : Memory.cell (Memory.put m a v) a = v := by
  unfold Memory.put
  by_cases h : v = Config.memInit
  · simp only [h, if_true]
    exact cell_filter_same m a
  · simp only [h, if_false]
    exact cell_insert_same _ a v (by simp)

theorem cell_put_other (m : Memory) {a b : Nat} (v : Byte) (h : b ≠ a) :
    Memory.cell (Memory.put m a v) b = Memory.cell m b := by
  unfold Memory.put
  by_cases hv : v = Config.memInit
  · simp only [hv, if_true]
    exact cell_filter_other m h
  · simp only [hv, if_false, cell_insert_other _ v h, cell_filter_other m h]

/-- A read after a write to the same address gives the byte written (20 R52 (a)). -/
@[simp] theorem read_write_same (m : Memory) (a : Word) (v : Byte) : (m.write a v).read a = v :=
  cell_put_same m a.toNat v

/-- A write leaves every other address alone. -/
theorem read_write_other (m : Memory) {a b : Word} (v : Byte) (h : b ≠ a) : (m.write a v).read b = m.read b :=
  cell_put_other m v fun e => h (BitVec.eq_of_toNat_eq e)

theorem read_write (m : Memory) (a b : Word) (v : Byte) :
    (m.write a v).read b = if b = a then v else m.read b := by
  by_cases h : b = a
  · simp [h]
  · simp [h, read_write_other m v h]

theorem wfFrom_mono {lo hi : Nat} {m : Memory} (h : lo ≤ hi) (w : Memory.wfFrom hi m = true) :
    Memory.wfFrom lo m = true := by
  cases m with
  | nil => rfl
  | cons c m =>
    simp only [Memory.wfFrom, Bool.and_eq_true, decide_eq_true_eq] at w ⊢
    exact ⟨⟨⟨by omega, w.1.1.2⟩, w.1.2⟩, w.2⟩

theorem wfFrom_filter {lo : Nat} {m : Memory} (q : Host.Cell → Bool) (w : Memory.wfFrom lo m = true) :
    Memory.wfFrom lo (m.filter q) = true := by
  induction m generalizing lo with
  | nil => rfl
  | cons c m ih =>
    simp only [Memory.wfFrom, Bool.and_eq_true, decide_eq_true_eq] at w
    by_cases hq : q c
    · simp only [List.filter_cons, hq, if_true, Memory.wfFrom, Bool.and_eq_true, decide_eq_true_eq]
      exact ⟨w.1, ih w.2⟩
    · simp only [List.filter_cons, hq]
      exact wfFrom_mono (by omega) (ih w.2)

theorem wfFrom_insert {lo a : Nat} {v : Byte} {m : Memory} (hlo : lo ≤ a) (ha : a < Config.cells)
    (hv : v ≠ Config.memInit) (hm : ∀ c ∈ m, c.1 ≠ a) (w : Memory.wfFrom lo m = true) :
    Memory.wfFrom lo (Memory.insert a v m) = true := by
  induction m generalizing lo with
  | nil => simp [Memory.insert, Memory.wfFrom, hlo, ha, hv]
  | cons c m ih =>
    simp only [Memory.wfFrom, Bool.and_eq_true, decide_eq_true_eq] at w
    have hc : c.1 ≠ a := hm c (by simp)
    by_cases hl : a < c.1
    · simp only [Memory.insert, hl, if_true, Memory.wfFrom, Bool.and_eq_true, decide_eq_true_eq]
      exact ⟨⟨⟨hlo, ha⟩, by simpa using hv⟩, ⟨⟨hl, w.1.1.2⟩, w.1.2⟩, w.2⟩
    · simp only [Memory.insert, hl, if_false, Memory.wfFrom, Bool.and_eq_true, decide_eq_true_eq]
      exact ⟨w.1, ih (by omega) (fun d hd => hm d (by simp [hd])) w.2⟩

theorem wf_put {m : Memory} {a : Nat} (ha : a < Config.cells) (v : Byte) (w : m.wf = true) :
    (Memory.put m a v).wf = true := by
  unfold Memory.put Memory.wf
  by_cases hv : v = Config.memInit
  · simp only [hv, if_true]
    exact wfFrom_filter _ w
  · simp only [hv, if_false]
    exact wfFrom_insert (Nat.zero_le a) ha hv (by simp) (wfFrom_filter _ w)

/-- A write keeps the canonical form. -/
theorem wf_write {m : Memory} (a : Word) (v : Byte) (w : m.wf = true) : (m.write a v).wf = true :=
  wf_put a.isLt v w

theorem wfFrom_range' (v : Byte) (hv : v ≠ Config.memInit) (n lo : Nat) (h : lo + n ≤ Config.cells) :
    Memory.wfFrom lo ((List.range' lo n).map fun a => (a, v)) = true := by
  induction n generalizing lo with
  | zero => rfl
  | succ n ih =>
    simp only [List.range'_succ, List.map_cons, Memory.wfFrom, Bool.and_eq_true, decide_eq_true_eq]
    exact ⟨⟨⟨by omega, by omega⟩, by simpa using hv⟩, ih (lo + 1) (by omega)⟩

/-- A filled memory is in canonical form. -/
theorem wf_filled (v : Byte) : (Memory.filled v).wf = true := by
  unfold Memory.filled
  split
  · rfl
  · rw [List.range_eq_range']
    exact wfFrom_range' v ‹_› _ 0 (by omega)

/-- Loading an image that fits keeps the canonical form. -/
theorem wf_load {m : Memory} (l : List Byte) (base : Nat) (h : base + l.length ≤ Config.cells) (w : m.wf = true) :
    (Memory.load base l m).wf = true := by
  induction l generalizing base m with
  | nil => exact w
  | cons b l ih =>
    rw [List.length_cons] at h
    exact ih (base + 1) (by omega) (wf_put (by omega) b w)

/-- Reset's memory is in canonical form. -/
theorem wf_reset : State.reset.mem.wf = true := rfl

theorem cell_below {m : Memory} {lo a : Nat} (w : Memory.wfFrom lo m = true) (h : a < lo) :
    Memory.cell m a = Config.memInit := by
  induction m generalizing lo with
  | nil => rfl
  | cons c m ih =>
    simp only [Memory.wfFrom, Bool.and_eq_true, decide_eq_true_eq] at w
    have : ¬c.1 = a := by omega
    simpa [Memory.cell, this] using ih w.2 (by omega)

/-- In canonical form, memories that read the same at every address are equal. -/
theorem wfFrom_ext {lo : Nat} {m k : Memory} (wm : Memory.wfFrom lo m = true) (wk : Memory.wfFrom lo k = true)
    (h : ∀ a, a < Config.cells → Memory.cell m a = Memory.cell k a) : m = k := by
  induction m generalizing lo k with
  | nil =>
    cases k with
    | nil => rfl
    | cons d k =>
      simp only [Memory.wfFrom, Bool.and_eq_true, decide_eq_true_eq, bne_iff_ne] at wk
      have := h d.1 wk.1.1.2
      simp [Memory.cell] at this
      exact absurd this.symm wk.1.2
  | cons c m ih =>
    cases k with
    | nil =>
      simp only [Memory.wfFrom, Bool.and_eq_true, decide_eq_true_eq, bne_iff_ne] at wm
      have := h c.1 wm.1.1.2
      simp [Memory.cell] at this
      exact absurd this wm.1.2
    | cons d k =>
      obtain ⟨ca, cv⟩ := c
      obtain ⟨da, dv⟩ := d
      simp only [Memory.wfFrom, Bool.and_eq_true, decide_eq_true_eq, bne_iff_ne] at wm wk
      obtain ⟨⟨⟨_, hc⟩, hcv⟩, wm'⟩ := wm
      obtain ⟨⟨⟨_, hd⟩, hdv⟩, wk'⟩ := wk
      have hcd : ca = da := by
        by_contra hne
        rcases Nat.lt_or_gt_of_ne hne with hl | hl
        · have := h ca hc
          rw [cell_below (lo := da) (m := (da, dv) :: k) (by simp [Memory.wfFrom, hd, hdv, wk']) hl] at this
          exact hcv (by simpa [Memory.cell] using this)
        · have := h da hd
          rw [cell_below (lo := ca) (m := (ca, cv) :: m) (by simp [Memory.wfFrom, hc, hcv, wm']) hl] at this
          exact hdv (by simpa [Memory.cell] using this.symm)
      subst hcd
      have hv : cv = dv := by simpa [Memory.cell] using h ca hc
      subst hv
      refine congrArg _ (ih wm' wk' fun a ha => ?_)
      rcases Nat.lt_or_ge a (ca + 1) with hl | hg
      · rw [cell_below wm' hl, cell_below wk' hl]
      · have := h a ha
        have hne : ¬ca = a := by omega
        simpa [Memory.cell, hne] using this

theorem wf_ext {m k : Memory} (wm : m.wf = true) (wk : k.wf = true) (h : ∀ a : Word, m.read a = k.read a) : m = k :=
  wfFrom_ext wm wk fun a ha => by
    have : (BitVec.ofNat 16 a).toNat = a := by simpa [Config.cells] using ha
    simpa [Memory.read, this] using h (BitVec.ofNat 16 a)

end Sys2Proof.Laws
end

