-- ==== Sys2Proof/Laws/State.lean ====
section
/-! SUPPORT. What each update of the state does to each field, so that no proof unfolds a record update. -/

namespace Sys2Proof.Laws

open Sys2Proof.Machine

@[simp] theorem setA_a (s : State) (v : Byte) : (s.setA v).a = v := rfl
@[simp] theorem setA_x (s : State) (v : Byte) : (s.setA v).x = s.x := rfl
@[simp] theorem setA_y (s : State) (v : Byte) : (s.setA v).y = s.y := rfl
@[simp] theorem setA_sp (s : State) (v : Byte) : (s.setA v).sp = s.sp := rfl
@[simp] theorem setA_p (s : State) (v : Byte) : (s.setA v).p = s.p := rfl
@[simp] theorem setA_pc (s : State) (v : Byte) : (s.setA v).pc = s.pc := rfl
@[simp] theorem setA_run (s : State) (v : Byte) : (s.setA v).run = s.run := rfl
@[simp] theorem setA_mem (s : State) (v : Byte) : (s.setA v).mem = s.mem := rfl
@[simp] theorem setA_bus (s : State) (v : Byte) : (s.setA v).bus = s.bus := rfl
@[simp] theorem setA_trace (s : State) (v : Byte) : (s.setA v).trace = s.trace := rfl

@[simp] theorem setX_a (s : State) (v : Byte) : (s.setX v).a = s.a := rfl
@[simp] theorem setX_x (s : State) (v : Byte) : (s.setX v).x = v := rfl
@[simp] theorem setX_y (s : State) (v : Byte) : (s.setX v).y = s.y := rfl
@[simp] theorem setX_sp (s : State) (v : Byte) : (s.setX v).sp = s.sp := rfl
@[simp] theorem setX_p (s : State) (v : Byte) : (s.setX v).p = s.p := rfl
@[simp] theorem setX_pc (s : State) (v : Byte) : (s.setX v).pc = s.pc := rfl
@[simp] theorem setX_run (s : State) (v : Byte) : (s.setX v).run = s.run := rfl
@[simp] theorem setX_mem (s : State) (v : Byte) : (s.setX v).mem = s.mem := rfl
@[simp] theorem setX_bus (s : State) (v : Byte) : (s.setX v).bus = s.bus := rfl
@[simp] theorem setX_trace (s : State) (v : Byte) : (s.setX v).trace = s.trace := rfl

@[simp] theorem setY_a (s : State) (v : Byte) : (s.setY v).a = s.a := rfl
@[simp] theorem setY_x (s : State) (v : Byte) : (s.setY v).x = s.x := rfl
@[simp] theorem setY_y (s : State) (v : Byte) : (s.setY v).y = v := rfl
@[simp] theorem setY_sp (s : State) (v : Byte) : (s.setY v).sp = s.sp := rfl
@[simp] theorem setY_p (s : State) (v : Byte) : (s.setY v).p = s.p := rfl
@[simp] theorem setY_pc (s : State) (v : Byte) : (s.setY v).pc = s.pc := rfl
@[simp] theorem setY_run (s : State) (v : Byte) : (s.setY v).run = s.run := rfl
@[simp] theorem setY_mem (s : State) (v : Byte) : (s.setY v).mem = s.mem := rfl
@[simp] theorem setY_bus (s : State) (v : Byte) : (s.setY v).bus = s.bus := rfl
@[simp] theorem setY_trace (s : State) (v : Byte) : (s.setY v).trace = s.trace := rfl

@[simp] theorem setSp_a (s : State) (v : Byte) : (s.setSp v).a = s.a := rfl
@[simp] theorem setSp_x (s : State) (v : Byte) : (s.setSp v).x = s.x := rfl
@[simp] theorem setSp_y (s : State) (v : Byte) : (s.setSp v).y = s.y := rfl
@[simp] theorem setSp_sp (s : State) (v : Byte) : (s.setSp v).sp = v := rfl
@[simp] theorem setSp_p (s : State) (v : Byte) : (s.setSp v).p = s.p := rfl
@[simp] theorem setSp_pc (s : State) (v : Byte) : (s.setSp v).pc = s.pc := rfl
@[simp] theorem setSp_run (s : State) (v : Byte) : (s.setSp v).run = s.run := rfl
@[simp] theorem setSp_mem (s : State) (v : Byte) : (s.setSp v).mem = s.mem := rfl
@[simp] theorem setSp_bus (s : State) (v : Byte) : (s.setSp v).bus = s.bus := rfl
@[simp] theorem setSp_trace (s : State) (v : Byte) : (s.setSp v).trace = s.trace := rfl

@[simp] theorem setP_a (s : State) (v : Byte) : (s.setP v).a = s.a := rfl
@[simp] theorem setP_x (s : State) (v : Byte) : (s.setP v).x = s.x := rfl
@[simp] theorem setP_y (s : State) (v : Byte) : (s.setP v).y = s.y := rfl
@[simp] theorem setP_sp (s : State) (v : Byte) : (s.setP v).sp = s.sp := rfl
@[simp] theorem setP_p (s : State) (v : Byte) : (s.setP v).p = v := rfl
@[simp] theorem setP_pc (s : State) (v : Byte) : (s.setP v).pc = s.pc := rfl
@[simp] theorem setP_run (s : State) (v : Byte) : (s.setP v).run = s.run := rfl
@[simp] theorem setP_mem (s : State) (v : Byte) : (s.setP v).mem = s.mem := rfl
@[simp] theorem setP_bus (s : State) (v : Byte) : (s.setP v).bus = s.bus := rfl
@[simp] theorem setP_trace (s : State) (v : Byte) : (s.setP v).trace = s.trace := rfl

@[simp] theorem setPc_a (s : State) (v : Word) : (s.setPc v).a = s.a := rfl
@[simp] theorem setPc_x (s : State) (v : Word) : (s.setPc v).x = s.x := rfl
@[simp] theorem setPc_y (s : State) (v : Word) : (s.setPc v).y = s.y := rfl
@[simp] theorem setPc_sp (s : State) (v : Word) : (s.setPc v).sp = s.sp := rfl
@[simp] theorem setPc_p (s : State) (v : Word) : (s.setPc v).p = s.p := rfl
@[simp] theorem setPc_pc (s : State) (v : Word) : (s.setPc v).pc = v := rfl
@[simp] theorem setPc_run (s : State) (v : Word) : (s.setPc v).run = s.run := rfl
@[simp] theorem setPc_mem (s : State) (v : Word) : (s.setPc v).mem = s.mem := rfl
@[simp] theorem setPc_bus (s : State) (v : Word) : (s.setPc v).bus = s.bus := rfl
@[simp] theorem setPc_trace (s : State) (v : Word) : (s.setPc v).trace = s.trace := rfl

@[simp] theorem setRun_a (s : State) (v : RunState) : (s.setRun v).a = s.a := rfl
@[simp] theorem setRun_x (s : State) (v : RunState) : (s.setRun v).x = s.x := rfl
@[simp] theorem setRun_y (s : State) (v : RunState) : (s.setRun v).y = s.y := rfl
@[simp] theorem setRun_sp (s : State) (v : RunState) : (s.setRun v).sp = s.sp := rfl
@[simp] theorem setRun_p (s : State) (v : RunState) : (s.setRun v).p = s.p := rfl
@[simp] theorem setRun_pc (s : State) (v : RunState) : (s.setRun v).pc = s.pc := rfl
@[simp] theorem setRun_run (s : State) (v : RunState) : (s.setRun v).run = v := rfl
@[simp] theorem setRun_mem (s : State) (v : RunState) : (s.setRun v).mem = s.mem := rfl
@[simp] theorem setRun_bus (s : State) (v : RunState) : (s.setRun v).bus = s.bus := rfl
@[simp] theorem setRun_trace (s : State) (v : RunState) : (s.setRun v).trace = s.trace := rfl

@[simp] theorem setMem_a (s : State) (v : Memory) : (s.setMem v).a = s.a := rfl
@[simp] theorem setMem_x (s : State) (v : Memory) : (s.setMem v).x = s.x := rfl
@[simp] theorem setMem_y (s : State) (v : Memory) : (s.setMem v).y = s.y := rfl
@[simp] theorem setMem_sp (s : State) (v : Memory) : (s.setMem v).sp = s.sp := rfl
@[simp] theorem setMem_p (s : State) (v : Memory) : (s.setMem v).p = s.p := rfl
@[simp] theorem setMem_pc (s : State) (v : Memory) : (s.setMem v).pc = s.pc := rfl
@[simp] theorem setMem_run (s : State) (v : Memory) : (s.setMem v).run = s.run := rfl
@[simp] theorem setMem_mem (s : State) (v : Memory) : (s.setMem v).mem = v := rfl
@[simp] theorem setMem_bus (s : State) (v : Memory) : (s.setMem v).bus = s.bus := rfl
@[simp] theorem setMem_trace (s : State) (v : Memory) : (s.setMem v).trace = s.trace := rfl

@[simp] theorem setBus_a (s : State) (v : Bus) : (s.setBus v).a = s.a := rfl
@[simp] theorem setBus_x (s : State) (v : Bus) : (s.setBus v).x = s.x := rfl
@[simp] theorem setBus_y (s : State) (v : Bus) : (s.setBus v).y = s.y := rfl
@[simp] theorem setBus_sp (s : State) (v : Bus) : (s.setBus v).sp = s.sp := rfl
@[simp] theorem setBus_p (s : State) (v : Bus) : (s.setBus v).p = s.p := rfl
@[simp] theorem setBus_pc (s : State) (v : Bus) : (s.setBus v).pc = s.pc := rfl
@[simp] theorem setBus_run (s : State) (v : Bus) : (s.setBus v).run = s.run := rfl
@[simp] theorem setBus_mem (s : State) (v : Bus) : (s.setBus v).mem = s.mem := rfl
@[simp] theorem setBus_bus (s : State) (v : Bus) : (s.setBus v).bus = v := rfl
@[simp] theorem setBus_trace (s : State) (v : Bus) : (s.setBus v).trace = s.trace := rfl

@[simp] theorem record_a (s : State) (k : AccessKind) (a : Word) (v : Byte) : (s.record k a v).a = s.a := rfl
@[simp] theorem record_x (s : State) (k : AccessKind) (a : Word) (v : Byte) : (s.record k a v).x = s.x := rfl
@[simp] theorem record_y (s : State) (k : AccessKind) (a : Word) (v : Byte) : (s.record k a v).y = s.y := rfl
@[simp] theorem record_sp (s : State) (k : AccessKind) (a : Word) (v : Byte) : (s.record k a v).sp = s.sp := rfl
@[simp] theorem record_p (s : State) (k : AccessKind) (a : Word) (v : Byte) : (s.record k a v).p = s.p := rfl
@[simp] theorem record_pc (s : State) (k : AccessKind) (a : Word) (v : Byte) : (s.record k a v).pc = s.pc := rfl
@[simp] theorem record_run (s : State) (k : AccessKind) (a : Word) (v : Byte) : (s.record k a v).run = s.run := rfl
@[simp] theorem record_mem (s : State) (k : AccessKind) (a : Word) (v : Byte) : (s.record k a v).mem = s.mem := rfl
@[simp] theorem record_bus (s : State) (k : AccessKind) (a : Word) (v : Byte) : (s.record k a v).bus = s.bus := rfl
@[simp] theorem record_trace (s : State) (k : AccessKind) (a : Word) (v : Byte) : (s.record k a v).trace = ⟨k, a, v⟩ :: s.trace := rfl

@[simp] theorem store_a (s : State) (a : Word) (v : Byte) : (s.store a v).a = s.a := rfl
@[simp] theorem store_x (s : State) (a : Word) (v : Byte) : (s.store a v).x = s.x := rfl
@[simp] theorem store_y (s : State) (a : Word) (v : Byte) : (s.store a v).y = s.y := rfl
@[simp] theorem store_sp (s : State) (a : Word) (v : Byte) : (s.store a v).sp = s.sp := rfl
@[simp] theorem store_p (s : State) (a : Word) (v : Byte) : (s.store a v).p = s.p := rfl
@[simp] theorem store_pc (s : State) (a : Word) (v : Byte) : (s.store a v).pc = s.pc := rfl
@[simp] theorem store_run (s : State) (a : Word) (v : Byte) : (s.store a v).run = s.run := rfl
@[simp] theorem store_mem (s : State) (a : Word) (v : Byte) : (s.store a v).mem = s.written a v := rfl
@[simp] theorem store_bus (s : State) (a : Word) (v : Byte) : (s.store a v).bus = s.bus := rfl
@[simp] theorem store_trace (s : State) (a : Word) (v : Byte) : (s.store a v).trace = ⟨.write, a, v⟩ :: s.trace := rfl

@[simp] theorem raise_a (s : State) (r : FaultRecord) : (s.raise r).a = s.a := rfl
@[simp] theorem raise_x (s : State) (r : FaultRecord) : (s.raise r).x = s.x := rfl
@[simp] theorem raise_y (s : State) (r : FaultRecord) : (s.raise r).y = s.y := rfl
@[simp] theorem raise_sp (s : State) (r : FaultRecord) : (s.raise r).sp = s.sp := rfl
@[simp] theorem raise_p (s : State) (r : FaultRecord) : (s.raise r).p = s.p := rfl
@[simp] theorem raise_pc (s : State) (r : FaultRecord) : (s.raise r).pc = s.pc := rfl
@[simp] theorem raise_run (s : State) (r : FaultRecord) : (s.raise r).run = .faulted r := rfl
@[simp] theorem raise_mem (s : State) (r : FaultRecord) : (s.raise r).mem = s.mem := rfl
@[simp] theorem raise_bus (s : State) (r : FaultRecord) : (s.raise r).bus = s.bus := rfl
@[simp] theorem raise_trace (s : State) (r : FaultRecord) : (s.raise r).trace = s.trace := rfl

@[simp] theorem setFlag_a (s : State) (f : Flag) (b : Bool) : (s.setFlag f b).a = s.a := rfl
@[simp] theorem setFlag_x (s : State) (f : Flag) (b : Bool) : (s.setFlag f b).x = s.x := rfl
@[simp] theorem setFlag_y (s : State) (f : Flag) (b : Bool) : (s.setFlag f b).y = s.y := rfl
@[simp] theorem setFlag_sp (s : State) (f : Flag) (b : Bool) : (s.setFlag f b).sp = s.sp := rfl
@[simp] theorem setFlag_p (s : State) (f : Flag) (b : Bool) : (s.setFlag f b).p = putFlag s.p f b := rfl
@[simp] theorem setFlag_pc (s : State) (f : Flag) (b : Bool) : (s.setFlag f b).pc = s.pc := rfl
@[simp] theorem setFlag_run (s : State) (f : Flag) (b : Bool) : (s.setFlag f b).run = s.run := rfl
@[simp] theorem setFlag_mem (s : State) (f : Flag) (b : Bool) : (s.setFlag f b).mem = s.mem := rfl
@[simp] theorem setFlag_bus (s : State) (f : Flag) (b : Bool) : (s.setFlag f b).bus = s.bus := rfl
@[simp] theorem setFlag_trace (s : State) (f : Flag) (b : Bool) : (s.setFlag f b).trace = s.trace := rfl

@[simp] theorem setZN_a (s : State) (v : Byte) : (s.setZN v).a = s.a := rfl
@[simp] theorem setZN_x (s : State) (v : Byte) : (s.setZN v).x = s.x := rfl
@[simp] theorem setZN_y (s : State) (v : Byte) : (s.setZN v).y = s.y := rfl
@[simp] theorem setZN_sp (s : State) (v : Byte) : (s.setZN v).sp = s.sp := rfl
@[simp] theorem setZN_p (s : State) (v : Byte) : (s.setZN v).p = zn s.p v := rfl
@[simp] theorem setZN_pc (s : State) (v : Byte) : (s.setZN v).pc = s.pc := rfl
@[simp] theorem setZN_run (s : State) (v : Byte) : (s.setZN v).run = s.run := rfl
@[simp] theorem setZN_mem (s : State) (v : Byte) : (s.setZN v).mem = s.mem := rfl
@[simp] theorem setZN_bus (s : State) (v : Byte) : (s.setZN v).bus = s.bus := rfl
@[simp] theorem setZN_trace (s : State) (v : Byte) : (s.setZN v).trace = s.trace := rfl

@[simp] theorem recordReads_nil (s : State) : s.recordReads [] = s := rfl

@[simp] theorem recordReads_cons (s : State) (a : Word) (l : List Word) :
    s.recordReads (a :: l) = (s.record .read a (s.busByte a)).recordReads l := rfl

theorem recordReads_append (s : State) (l k : List Word) :
    s.recordReads (l ++ k) = (s.recordReads l).recordReads k := List.foldl_append

/-- What noting reads does: the trace grows by a read of each address, newest first, and nothing else changes. -/
theorem recordReads_eq (s : State) (l : List Word) :
    ∃ k, s.recordReads l = { s with trace := k ++ s.trace } ∧ k.map (fun q => (q.kind, q.addr)) =
      (l.map fun a => (AccessKind.read, a)).reverse := by
  induction l generalizing s with
  | nil => exact ⟨[], rfl, rfl⟩
  | cons a l ih =>
    obtain ⟨k, hk, hm⟩ := ih (s.record .read a (s.busByte a))
    exact ⟨k ++ [⟨.read, a, s.busByte a⟩], by rw [recordReads_cons, hk]; simp [State.record], by simp [hm]⟩

@[simp] theorem recordReads_a (s : State) (l : List Word) : (s.recordReads l).a = s.a := by
  obtain ⟨k, h, -⟩ := recordReads_eq s l
  rw [h]
@[simp] theorem recordReads_x (s : State) (l : List Word) : (s.recordReads l).x = s.x := by
  obtain ⟨k, h, -⟩ := recordReads_eq s l
  rw [h]
@[simp] theorem recordReads_y (s : State) (l : List Word) : (s.recordReads l).y = s.y := by
  obtain ⟨k, h, -⟩ := recordReads_eq s l
  rw [h]
@[simp] theorem recordReads_sp (s : State) (l : List Word) : (s.recordReads l).sp = s.sp := by
  obtain ⟨k, h, -⟩ := recordReads_eq s l
  rw [h]
@[simp] theorem recordReads_p (s : State) (l : List Word) : (s.recordReads l).p = s.p := by
  obtain ⟨k, h, -⟩ := recordReads_eq s l
  rw [h]
@[simp] theorem recordReads_pc (s : State) (l : List Word) : (s.recordReads l).pc = s.pc := by
  obtain ⟨k, h, -⟩ := recordReads_eq s l
  rw [h]
@[simp] theorem recordReads_run (s : State) (l : List Word) : (s.recordReads l).run = s.run := by
  obtain ⟨k, h, -⟩ := recordReads_eq s l
  rw [h]
@[simp] theorem recordReads_mem (s : State) (l : List Word) : (s.recordReads l).mem = s.mem := by
  obtain ⟨k, h, -⟩ := recordReads_eq s l
  rw [h]
@[simp] theorem recordReads_bus (s : State) (l : List Word) : (s.recordReads l).bus = s.bus := by
  obtain ⟨k, h, -⟩ := recordReads_eq s l
  rw [h]

/-- Where plain memory serves a read, it gives what memory holds (20 R52). -/
theorem busByte_memory {s : State} {a : Word} (h : s.bus.reply s.trace (.read a) = .memory) :
    s.busByte a = s.mem.read a := by
  simp [State.busByte, h]

/-- Where plain memory serves a write, the byte is stored (20 R52). -/
theorem written_memory {s : State} {a : Word} {v : Byte} (h : s.bus.reply s.trace (.write a v) = .memory) :
    s.written a v = s.mem.write a v := by
  simp [State.written, h]

@[simp] theorem setA_busByte (s : State) (v : Byte) (a : Word) : (s.setA v).busByte a = s.busByte a := rfl
@[simp] theorem setX_busByte (s : State) (v : Byte) (a : Word) : (s.setX v).busByte a = s.busByte a := rfl
@[simp] theorem setY_busByte (s : State) (v : Byte) (a : Word) : (s.setY v).busByte a = s.busByte a := rfl
@[simp] theorem setSp_busByte (s : State) (v : Byte) (a : Word) : (s.setSp v).busByte a = s.busByte a := rfl
@[simp] theorem setP_busByte (s : State) (v : Byte) (a : Word) : (s.setP v).busByte a = s.busByte a := rfl
@[simp] theorem setPc_busByte (s : State) (v : Word) (a : Word) : (s.setPc v).busByte a = s.busByte a := rfl
@[simp] theorem setRun_busByte (s : State) (v : RunState) (a : Word) : (s.setRun v).busByte a = s.busByte a := rfl
@[simp] theorem raise_busByte (s : State) (r : FaultRecord) (a : Word) : (s.raise r).busByte a = s.busByte a := rfl
@[simp] theorem setFlag_busByte (s : State) (f : Flag) (b : Bool) (a : Word) :
    (s.setFlag f b).busByte a = s.busByte a := rfl
@[simp] theorem setZN_busByte (s : State) (v : Byte) (a : Word) : (s.setZN v).busByte a = s.busByte a := rfl
@[simp] theorem setA_services (s : State) (v : Byte) (q : BusRequest) :
    (s.setA v).services q = s.services q := rfl
@[simp] theorem setX_services (s : State) (v : Byte) (q : BusRequest) :
    (s.setX v).services q = s.services q := rfl
@[simp] theorem setY_services (s : State) (v : Byte) (q : BusRequest) :
    (s.setY v).services q = s.services q := rfl
@[simp] theorem setSp_services (s : State) (v : Byte) (q : BusRequest) :
    (s.setSp v).services q = s.services q := rfl
@[simp] theorem setP_services (s : State) (v : Byte) (q : BusRequest) :
    (s.setP v).services q = s.services q := rfl
@[simp] theorem setPc_services (s : State) (v : Word) (q : BusRequest) :
    (s.setPc v).services q = s.services q := rfl
@[simp] theorem setRun_services (s : State) (v : RunState) (q : BusRequest) :
    (s.setRun v).services q = s.services q := rfl
@[simp] theorem setMem_services (s : State) (v : Memory) (q : BusRequest) :
    (s.setMem v).services q = s.services q := rfl
@[simp] theorem raise_services (s : State) (r : FaultRecord) (q : BusRequest) :
    (s.raise r).services q = s.services q := rfl
@[simp] theorem setZN_services (s : State) (v : Byte) (q : BusRequest) :
    (s.setZN v).services q = s.services q := rfl

end Sys2Proof.Laws
end

