-- ==== Sys2Proof/Laws/Ops.lean ====
section
/-! SUPPORT. What each shared operation can do, said once: how it is done when the bus services its access, how it
raises when the bus refuses. -/

namespace Sys2Proof.Laws

open Sys2Proof.Machine

@[simp] theorem bind_done {α β : Type} (v : α) (s : State) (f : α → State → Res β) : (Res.done v s).bind f = f v s := rfl

@[simp] theorem bind_raised {α β : Type} (s : State) (f : α → State → Res β) :
    (Res.raised s : Res α).bind f = .raised s := rfl

@[simp] theorem outcome_done (s : State) : (Res.done () s).outcome = .next s := rfl

@[simp] theorem outcome_raised (s : State) : (Res.raised s : Res Unit).outcome = .next s := rfl

/-- An operation of a step always gives a next state: finished, or Faulted. -/
theorem outcome_next (r : Res Unit) : ∃ t, r.outcome = .next t := by
  cases r with
  | done v s => exact ⟨s, rfl⟩
  | raised s => exact ⟨s, rfl⟩

theorem memRead_serviced {opAt a : Word} {s : State} (h : s.services (.read a) = true) :
    memRead opAt a s = .done (s.busByte a) (s.record .read a (s.busByte a)) := by
  simp [memRead, h]

theorem memRead_refused {opAt a : Word} {s : State} (h : s.services (.read a) = false) :
    memRead opAt a s = .raised (s.raise (.addressingFailure a .read opAt)) := by
  simp [memRead, h]

theorem memWrite_serviced {opAt a : Word} {v : Byte} {s : State} (h : s.services (.write a v) = true) :
    memWrite opAt a v s = .done () (s.store a v) := by
  simp [memWrite, h]

theorem memWrite_refused {opAt a : Word} {v : Byte} {s : State} (h : s.services (.write a v) = false) :
    memWrite opAt a v s = .raised (s.raise (.addressingFailure a .write opAt)) := by
  simp [memWrite, h]

theorem fetch8_serviced {opAt : Word} {s : State} (h : s.services (.read s.pc) = true) :
    fetch8 opAt s = .done (s.busByte s.pc) s.afterByte := by
  simp [fetch8, memRead_serviced h, State.afterByte]

theorem fetch8_refused {opAt : Word} {s : State} (h : s.services (.read s.pc) = false) :
    fetch8 opAt s = .raised (s.raise (.addressingFailure s.pc .read opAt)) := by
  simp [fetch8, memRead_refused h]

theorem push8_serviced {opAt : Word} {v : Byte} {s : State} (h : s.services (.write (stackAddr s.sp) v) = true) :
    push8 opAt v s = .done () ((s.store (stackAddr s.sp) v).setSp (s.sp - 1)) := by
  simp [push8, memWrite_serviced h]

theorem push8_refused {opAt : Word} {v : Byte} {s : State} (h : s.services (.write (stackAddr s.sp) v) = false) :
    push8 opAt v s = .raised (s.raise (.addressingFailure (stackAddr s.sp) .write opAt)) := by
  simp [push8, memWrite_refused h]

theorem pull8_serviced {opAt : Word} {s : State} (h : s.services (.read (stackAddr (s.sp + 1))) = true) :
    pull8 opAt s = .done (s.busByte (stackAddr (s.sp + 1)))
      ((s.setSp (s.sp + 1)).record .read (stackAddr (s.sp + 1)) (s.busByte (stackAddr (s.sp + 1)))) := by
  have h' : (s.setSp (s.sp + 1)).services (.read (stackAddr (s.setSp (s.sp + 1)).sp)) = true := h
  unfold pull8
  rw [memRead_serviced h']
  rfl

theorem pull8_refused {opAt : Word} {s : State} (h : s.services (.read (stackAddr (s.sp + 1))) = false) :
    pull8 opAt s = .raised ((s.setSp (s.sp + 1)).raise (.addressingFailure (stackAddr (s.sp + 1)) .read opAt)) := by
  have h' : (s.setSp (s.sp + 1)).services (.read (stackAddr (s.setSp (s.sp + 1)).sp)) = false := h
  unfold pull8
  rw [memRead_refused h']
  rfl

@[simp] theorem servicedAll_nil (s : State) : s.servicedAll [] = s := rfl

@[simp] theorem servicedAll_cons (s : State) (q : BusRequest) (l : List BusRequest) :
    s.servicedAll (q :: l) = (s.serviced q).servicedAll l := rfl

theorem servicedAll_append (s : State) (l k : List BusRequest) :
    s.servicedAll (l ++ k) = (s.servicedAll l).servicedAll k := List.foldl_append

theorem servicedAll_reads (s : State) (l : List Word) : s.servicedAll (l.map .read) = s.recordReads l := by
  simp only [State.servicedAll, List.foldl_map]
  rfl

@[simp] theorem servicesAll_nil (s : State) : s.servicesAll [] = true := rfl

@[simp] theorem servicesAll_cons (s : State) (q : BusRequest) (l : List BusRequest) :
    s.servicesAll (q :: l) = (s.services q && (s.serviced q).servicesAll l) := rfl

theorem servicesAll_append (s : State) (l k : List BusRequest) :
    s.servicesAll (l ++ k) = (s.servicesAll l && (s.servicedAll l).servicesAll k) := by
  induction l generalizing s with
  | nil => rfl
  | cons q l ih => simp [ih, Bool.and_assoc]

@[simp] theorem serviced_setPc (s : State) (w : Word) (q : BusRequest) :
    (s.setPc w).serviced q = (s.serviced q).setPc w := by cases q <;> rfl

/-- Where PC stands does not matter to the bus. -/
@[simp] theorem servicesAll_setPc (s : State) (w : Word) (l : List BusRequest) :
    (s.setPc w).servicesAll l = s.servicesAll l := by
  induction l generalizing s with
  | nil => rfl
  | cons q l ih =>
    rw [servicesAll_cons, servicesAll_cons, serviced_setPc, ih]
    rfl

@[simp] theorem servicesReads_nil (s : State) : s.servicesReads [] = true := rfl

@[simp] theorem servicesReads_cons (s : State) (a : Word) (l : List Word) :
    s.servicesReads (a :: l) = (s.services (.read a) && (s.record .read a (s.busByte a)).servicesReads l) := rfl

theorem servicesReads_append (s : State) (l k : List Word) :
    s.servicesReads (l ++ k) = (s.servicesReads l && (s.recordReads l).servicesReads k) := by
  simp only [State.servicesReads, List.map_append, servicesAll_append, servicedAll_reads]

/-- What plain memory serves is serviced. -/
theorem services_of_memory {s : State} {q : BusRequest} (h : s.bus.reply s.trace q = .memory) : s.services q = true := by
  simp [State.services, Bus.services, h]

/-- On FlatRAM64K plain memory serves every request (20 R50). -/
theorem reply_flatRam64K (seen : List BusAccess) (q : BusRequest) : Bus.flatRam64K.reply seen q = .memory := by
  have h : q.addr.toNat < 65536 := q.addr.isLt
  rcases q with a | ⟨a, v⟩ <;>
    simp_all [Bus.flatRam64K, Bus.reply, Bus.caseAt, BusCase.applies, BusCase.holds, BusRequest.kind, BusRequest.addr,
      Config.cells]

/-- Where every read is served by plain memory, no phase of the bus matters. -/
theorem reply_of_readsMemory {b : Bus} {a : Word} (h : b.readsMemory a = true) (seen : List BusAccess) :
    b.reply seen (.read a) = .memory := by
  obtain ⟨cases⟩ := b
  unfold Bus.readsMemory at h
  unfold Bus.reply Bus.caseAt
  generalize Bus.phase ⟨cases⟩ seen = p
  simp only at h ⊢
  induction cases with
  | nil => simp at h
  | cons c cs ih =>
    have hk : c.applies p (.read a) = (c.kind == .read && c.holds a && c.phase.all (· == p) &&
      c.byte.all (BusRequest.read a).carries) := rfl
    rcases hc : (c.kind == .read && c.holds a) with _ | _
    · simp only [List.find?_cons, hc, hk, Bool.false_and] at h ⊢
      exact ih h
    · simp only [List.find?_cons, hc, hk, Bool.and_eq_true, beq_iff_eq] at h ⊢
      simp [h.1.2, h.2, h.1.1]

theorem holds_single (a c : Word) : (BusCase.mk .read a.toNat 1 .memory none none none).holds c = decide (c = a) := by
  simp only [BusCase.holds, ← Bool.decide_and]
  exact decide_eq_decide.mpr ⟨fun h => BitVec.eq_of_toNat_eq (by omega), fun h => by subst h; omega⟩

/-- `openForRead` makes the address's reads plain memory's. -/
theorem readsMemory_openForRead (b : Bus) (a : Word) : (b.openForRead a).readsMemory a = true := by
  unfold Bus.openForRead
  split
  · assumption
  · simp [Bus.readsMemory, holds_single]

/-- `openForRead` leaves another address whose reads are plain memory's so. -/
theorem readsMemory_openForRead_other {b : Bus} {a c : Word} (h : b.readsMemory c = true) (hc : c ≠ a) :
    (b.openForRead a).readsMemory c = true := by
  unfold Bus.openForRead
  split
  · exact h
  · simpa [Bus.readsMemory, holds_single, hc] using h

end Sys2Proof.Laws
end

