-- ==== Sys2Proof/Laws/Fetch.lean ====
section
/-! SUPPORT. What fetching an instruction can do: the whole instruction is fetched, or the first refused byte faults. -/

namespace Sys2Proof.Laws

open Sys2Proof.Machine

/-- Any three bytes begin with a well-formed instruction (30 R79). -/
theorem decode_three (b0 b1 b2 : Byte) :
    ∃ i rest, decode [b0, b1, b2] = .ok (i, rest) ∧ wellFormed i = true ∧
      [b0, b1, b2] = encode i ++ rest ∧ (encode i).length = lengthOf i := by
  have h := lookup_entry b0
  rw [decode_cons]
  match hl : lookup b0 with
  | none => rw [hl] at h; exact ⟨_, _, rfl, h, rfl, rfl⟩
  | some (.one i) => rw [hl] at h; exact ⟨_, _, rfl, h.2.2, by simp [h.1], by simp [h.1, h.2.1]⟩
  | some (.two mk) =>
    rw [hl] at h
    exact ⟨_, _, rfl, (h b1).2.2, by simp [(h b1).1], by simp [(h b1).1, (h b1).2.1]⟩
  | some (.three mk) =>
    rw [hl] at h
    have h := h (wordOf b2 b1)
    exact ⟨_, _, rfl, h.2.2, by simp [h.1], by simp [h.1, h.2.1]⟩

/-- Every instruction's bytes are serviced: it is fetched whole, PC past it. -/
theorem fetch_serviced {s : State} {i : Instr} {rest : List Byte}
    (hd : decode (s.stream 3) = .ok (i, rest)) (hs : s.servicesFetch (lengthOf i) = true) :
    fetch s = .done i (s.afterFetch (lengthOf i)) := by
  have h := lookup_entry (s.busByte s.pc)
  simp only [State.stream, decode_cons] at hd
  match hl : lookup (s.busByte s.pc) with
  | none =>
    simp only [hl, Except.ok.injEq, Prod.mk.injEq] at hd
    obtain ⟨rfl, -⟩ := hd
    simp only [lengthOf, modeOf, State.servicesFetch, Bool.and_eq_true] at hs
    simp only [fetch, fetch8_serviced hs.1, bind_done, hl]
    rfl
  | some (.one i') =>
    simp only [hl, Except.ok.injEq, Prod.mk.injEq] at hd h
    obtain ⟨rfl, -⟩ := hd
    rw [h.2.1] at hs ⊢
    simp only [State.servicesFetch, Bool.and_eq_true] at hs
    simp only [fetch, fetch8_serviced hs.1, bind_done, hl]
    rfl
  | some (.two mk) =>
    simp only [hl, Except.ok.injEq, Prod.mk.injEq] at hd h
    obtain ⟨rfl, -⟩ := hd
    rw [(h _).2.1] at hs ⊢
    simp only [State.servicesFetch, Bool.and_eq_true] at hs
    simp only [fetch, fetch8_serviced hs.1, bind_done, hl]
    rw [fetch8_serviced (by exact hs.2.1)]
    rfl
  | some (.three mk) =>
    simp only [hl, Except.ok.injEq, Prod.mk.injEq] at hd h
    obtain ⟨rfl, -⟩ := hd
    rw [(h _).2.1] at hs ⊢
    simp only [State.servicesFetch, Bool.and_eq_true] at hs
    simp only [fetch, fetch8_serviced hs.1, bind_done, hl]
    rw [fetch8_serviced (by exact hs.2.1), bind_done, fetch8_serviced (by exact hs.2.2.1)]
    rfl

/-- The first refused byte of an instruction ends the fetch, PC at that byte (40 R101, 60 R247). -/
theorem fetch_refused {s : State} {i : Instr} {rest : List Byte} {n : Nat}
    (hd : decode (s.stream 3) = .ok (i, rest)) (hn : n < lengthOf i)
    (hs : s.servicesFetch n = true) (hr : (s.afterFetch n).services (.read (s.pc + BitVec.ofNat 16 n)) = false) :
    fetch s = .raised ((s.afterFetch n).raise
      (.addressingFailure (s.pc + BitVec.ofNat 16 n) .read s.pc)) := by
  have h := lookup_entry (s.busByte s.pc)
  simp only [State.stream, decode_cons] at hd
  match n, hs with
  | 0, _ =>
    have e : s.pc + BitVec.ofNat 16 0 = s.pc := by simp
    rw [e, State.afterFetch] at hr
    rw [e]
    simp only [fetch, fetch8_refused hr, bind_raised]
    rfl
  | n + 1, hs =>
    simp only [State.servicesFetch, Bool.and_eq_true] at hs
    simp only [fetch, fetch8_serviced hs.1, bind_done]
    match hl : lookup (s.busByte s.pc) with
    | none =>
      simp only [hl, Except.ok.injEq, Prod.mk.injEq] at hd
      obtain ⟨rfl, -⟩ := hd
      exact absurd hn (by simp [lengthOf, modeOf])
    | some (.one i') =>
      simp only [hl, Except.ok.injEq, Prod.mk.injEq] at hd h
      obtain ⟨rfl, -⟩ := hd
      exact absurd hn (by simp [h.2.1])
    | some (.two mk) =>
      simp only [hl, Except.ok.injEq, Prod.mk.injEq] at hd h
      obtain ⟨rfl, -⟩ := hd
      rw [(h _).2.1] at hn
      obtain rfl : n = 0 := by omega
      simp only
      rw [fetch8_refused (by exact hr), bind_raised]
      rfl
    | some (.three mk) =>
      simp only [hl, Except.ok.injEq, Prod.mk.injEq] at hd h
      obtain ⟨rfl, -⟩ := hd
      rw [(h _).2.1] at hn
      rcases n with _ | _ | k
      · simp only
        rw [fetch8_refused (by exact hr), bind_raised]
        rfl
      · have e : s.pc + BitVec.ofNat 16 2 = s.pc + 1 + 1 := by rw [BitVec.add_assoc]; rfl
        simp only [State.servicesFetch, Bool.and_eq_true] at hs
        simp only [Nat.reduceAdd, e, State.afterFetch] at hr ⊢
        have hr' : s.afterByte.afterByte.services (.read s.afterByte.afterByte.pc) = false := hr
        rw [fetch8_serviced (by exact hs.2.1), bind_done, fetch8_refused hr', bind_raised]
        rfl
      · omega

/-- The fetches of an instruction, the first apart. -/
theorem fetches_succ (a : Word) (n : Nat) : fetches a (n + 1) = a :: fetches (a + 1) n := by
  simp only [fetches, List.range_succ_eq_map, List.map_cons, List.map_map]
  refine congrArg₂ _ (BitVec.add_zero a) (List.map_congr_left fun k _ => ?_)
  rw [Function.comp, BitVec.add_assoc, Nat.succ_eq_add_one, Nat.add_comm k 1, BitVec.ofNat_add]
  rfl

/-- The bus services the fetch of `n` bytes when it services reads of their addresses in ascending order (40 R118). -/
theorem servicesFetch_eq (s : State) (n : Nat) : s.servicesFetch n = s.servicesReads (fetches s.pc n) := by
  induction n generalizing s with
  | zero => rfl
  | succ n ih =>
    rw [State.servicesFetch, ih, fetches_succ, servicesReads_cons]
    exact congrArg _ (servicesAll_setPc _ _ _)

/-- Either the fetches of `n` bytes are serviced, or there is a first one that is refused. -/
theorem servicesFetch_or (s : State) (n : Nat) :
    s.servicesFetch n = true ∨ ∃ k, k < n ∧ s.servicesFetch k = true ∧
      (s.afterFetch k).services (.read (s.pc + BitVec.ofNat 16 k)) = false := by
  induction n generalizing s with
  | zero => exact .inl rfl
  | succ n ih =>
    rcases hb : s.services (.read s.pc) with _ | _
    · exact .inr ⟨0, by omega, rfl, by simpa [State.afterFetch] using hb⟩
    · rcases ih s.afterByte with h | ⟨k, hk, hs, hr⟩
      · exact .inl (by rw [State.servicesFetch, hb, h]; rfl)
      · refine .inr ⟨k + 1, by omega, by rw [State.servicesFetch, hb, hs]; rfl, ?_⟩
        have e : BitVec.ofNat 16 (k + 1) = 1 + BitVec.ofNat 16 k := by
          rw [Nat.add_comm, BitVec.ofNat_add]; rfl
        rw [e, ← BitVec.add_assoc]
        exact hr

/-- Everything a fetch can do. -/
theorem fetch_cases (s : State) : ∃ i rest, decode (s.stream 3) = .ok (i, rest) ∧ wellFormed i = true ∧
    (s.servicesFetch (lengthOf i) = true ∧ fetch s = .done i (s.afterFetch (lengthOf i)) ∨
      ∃ n, n < lengthOf i ∧ s.servicesFetch n = true ∧
        (s.afterFetch n).services (.read (s.pc + BitVec.ofNat 16 n)) = false ∧
        fetch s = .raised ((s.afterFetch n).raise (.addressingFailure (s.pc + BitVec.ofNat 16 n) .read s.pc))) := by
  obtain ⟨i, rest, hd, hw, -⟩ := decode_three (s.busByte s.pc) (s.afterByte.busByte s.afterByte.pc)
    (s.afterByte.afterByte.busByte s.afterByte.afterByte.pc)
  refine ⟨i, rest, hd, hw, ?_⟩
  rcases servicesFetch_or s (lengthOf i) with h | ⟨k, hk, hs, hr⟩
  · exact .inl ⟨h, fetch_serviced hd h⟩
  · exact .inr ⟨k, hk, hs, hr, fetch_refused hd hk hs hr⟩

/-- What fetching `n` bytes leaves: PC advanced, the reads noted, nothing else changed. -/
theorem afterFetch_eq (s : State) (n : Nat) : ∃ l, s.afterFetch n =
    { s with pc := s.pc + BitVec.ofNat 16 n, trace := l ++ s.trace } := by
  induction n generalizing s with
  | zero => exact ⟨[], by simp [State.afterFetch]⟩
  | succ n ih =>
    obtain ⟨l, hl⟩ := ih s.afterByte
    refine ⟨l ++ [⟨.read, s.pc, s.busByte s.pc⟩], ?_⟩
    rw [State.afterFetch, hl]
    have e : s.pc + 1 + BitVec.ofNat 16 n = s.pc + BitVec.ofNat 16 (n + 1) := by
      rw [BitVec.add_assoc, Nat.add_comm n 1, BitVec.ofNat_add]; rfl
    simp [State.afterByte, State.record, State.setPc, ← e]

end Sys2Proof.Laws
end

