-- ==== Sys2Proof/Laws/Flags.lean ====
section
/-! SUPPORT. Reading a flag after writing one, and what `SetZN` does to each flag. -/

namespace Sys2Proof.Laws

open Sys2Proof.Machine

theorem index_lt (f : Flag) : f.index < 8 := by cases f <;> decide

theorem index_injective {f g : Flag} (h : f.index = g.index) : f = g := by
  cases f <;> cases g <;> first | rfl | exact absurd h (by decide)

theorem mask_bit (f : Flag) (i : Nat) : f.mask.getLsbD i = decide (f.index = i) := by
  have := index_lt f
  simp only [Flag.mask, BitVec.getLsbD_twoPow, this, decide_true, Bool.true_and]

/-- A flag reads as it was last written, and writing one leaves the other seven (00 R8). -/
theorem getFlag_putFlag (p : Byte) (f g : Flag) (v : Bool) :
    getFlag (putFlag p f v) g = if g = f then v else getFlag p g := by
  have hg := index_lt g
  by_cases h : g = f
  · subst h
    cases v <;>
      simp only [getFlag, putFlag, if_true, if_false, Bool.false_eq_true, BitVec.getLsbD_or, BitVec.getLsbD_and,
        BitVec.getLsbD_not, mask_bit, hg, decide_true, Bool.or_true, Bool.not_true, Bool.and_false]
  · have hi : f.index ≠ g.index := fun e => h (index_injective e).symm
    cases v <;>
      simp only [getFlag, putFlag, if_true, if_false, Bool.false_eq_true, BitVec.getLsbD_or, BitVec.getLsbD_and,
        BitVec.getLsbD_not, mask_bit, hi, h, hg, decide_false, decide_true, Bool.or_false, Bool.not_false, Bool.and_true]

@[simp] theorem getFlag_putFlag_same (p : Byte) (f : Flag) (v : Bool) : getFlag (putFlag p f v) f = v := by
  simp [getFlag_putFlag]

/-- Two status bytes with the same eight flags are equal. -/
theorem flags_ext {p q : Byte} (h : ∀ f, getFlag p f = getFlag q f) : p = q := by
  apply BitVec.eq_of_getLsbD_eq
  intro i hi
  have h0 := h .c; have h1 := h .z; have h2 := h .i; have h3 := h .d
  have h4 := h .b; have h5 := h .u; have h6 := h .v; have h7 := h .n
  simp only [getFlag, Flag.index] at h0 h1 h2 h3 h4 h5 h6 h7
  match i, hi with
  | 0, _ => exact h0
  | 1, _ => exact h1
  | 2, _ => exact h2
  | 3, _ => exact h3
  | 4, _ => exact h4
  | 5, _ => exact h5
  | 6, _ => exact h6
  | 7, _ => exact h7

theorem getFlag_zn (p v : Byte) (g : Flag) :
    getFlag (zn p v) g = if g = .n then bit7 v else if g = .z then v == 0 else getFlag p g := by
  unfold zn
  rw [getFlag_putFlag, getFlag_putFlag]

end Sys2Proof.Laws
end

