-- ==== Sys2Proof/Laws/Operands.lean ====
section
/-! SUPPORT. What the resolver and the operand classes do when the bus services their accesses: the effective address,
the operand byte, the reads made. -/

namespace Sys2Proof.Laws

open Sys2Proof.Machine

theorem readPointer_serviced {opAt lo hi : Word} {s : State}
    (h : s.servicesReads [lo, hi] = true) :
    readPointer opAt lo hi s = .done (s.pointer lo hi) (s.recordReads [lo, hi]) := by
  simp only [servicesReads_cons, servicesReads_nil, Bool.and_true, Bool.and_eq_true] at h
  simp [readPointer, memRead_serviced h.1, memRead_serviced h.2, State.pointer]

/-- The resolver reads its pointer bytes and gives the effective address (40 R103). -/
theorem resolve_serviced {opAt : Word} {m : MemMode} {s : State}
    (h : s.servicesReads (m.pointerReads s) = true) :
    resolve opAt m s = .done (m.ea s) (s.recordReads (m.pointerReads s)) := by
  cases m with
  | ind w => exact readPointer_serviced h
  | izx b => exact readPointer_serviced h
  | izy b =>
    have := readPointer_serviced (opAt := opAt) (s := s) h
    simp only [resolve, this, bind_done, recordReads_y]
    rfl
  | _ => rfl

/-- A reading instruction's operand (40 R117). -/
theorem loadOperand_serviced {opAt : Word} {src : Src} {s : State}
    (h : s.servicesReads (src.reads s) = true) :
    loadOperand opAt src s = .done (src.value s) (s.recordReads (src.reads s)) := by
  cases src with
  | imm v => rfl
  | mem m =>
    simp only [Src.reads, servicesReads_append, servicesReads_cons, servicesReads_nil, Bool.and_true,
      Bool.and_eq_true] at h
    simp only [loadOperand, resolve_serviced h.1, bind_done, memRead_serviced h.2, Src.value, Src.reads,
      recordReads_append, recordReads_cons, recordReads_nil]

/-- Class read, every read serviced. -/
theorem readClass_serviced {src : Src} {effect : Byte → State → State} {s : State}
    (h : s.servicesReads (src.reads s) = true) :
    readClass src effect s = .next (effect (src.value s) (s.recordReads (src.reads s))) := by
  simp [readClass, loadOperand_serviced h]

/-- Class write, every access serviced. -/
theorem writeClass_serviced {m : MemMode} {v : Byte} {s : State} (hp : s.servicesReads (m.pointerReads s) = true)
    (hw : (s.recordReads (m.pointerReads s)).services (.write (m.ea s) v) = true) :
    writeClass m v s = .next ((s.recordReads (m.pointerReads s)).store (m.ea s) v) := by
  simp [writeClass, resolve_serviced hp, memWrite_serviced hw]

/-- Class read-modify-write, every access serviced. -/
theorem modifyClass_serviced {m : MemMode} {op : Byte → Byte → Altered} {s : State}
    (hr : s.servicesReads (m.pointerReads s ++ [m.ea s]) = true)
    (hw : (s.recordReads (m.pointerReads s ++ [m.ea s])).services (.write (m.ea s) (m.altered op s).value) = true) :
    modifyClass m op s = .next (((s.recordReads (m.pointerReads s ++ [m.ea s])).store (m.ea s)
      (m.altered op s).value).setP (m.altered op s).p) := by
  simp only [servicesReads_append, servicesReads_cons, servicesReads_nil, Bool.and_true, Bool.and_eq_true] at hr
  simp only [recordReads_append, recordReads_cons, recordReads_nil, MemMode.altered] at hw ⊢
  simp only [modifyClass, resolve_serviced hr.1, bind_done, memRead_serviced hr.2, record_p, recordReads_p,
    memWrite_serviced hw, outcome_done, store_p]

end Sys2Proof.Laws
end

