-- ==== Sys2Proof/Laws/PerInstr.lean ====
section
/-! SUPPORT. The family of facts stated once per instruction: an instruction is encoded in as many bytes as the machine
fetches for it, one, two or three (30_encoding.md R70, R73). -/

namespace Sys2Proof.Laws

/-- `encode` gives as many bytes as `lengthOf` counts, and those are one to three. -/
def Size.Statement (i : Instr) : Prop :=
  (encode i).length = lengthOf i ∧ lengthOf i ∈ [1, 2, 3]

theorem size_of_length {i : Instr} (n : Nat) (he : (encode i).length = n) (hl : lengthOf i = n) (hn : n ∈ [1, 2, 3]) :
    Size.Statement i :=
  ⟨he.trans hl.symm, hl ▸ hn⟩

theorem Size.adcImm (v : Byte) : Size.Statement (.adcImm v) :=
  size_of_length 2 rfl rfl (by decide)
theorem Size.adcZp (b : Byte) : Size.Statement (.adcZp b) :=
  size_of_length 2 rfl rfl (by decide)
theorem Size.adcZpx (b : Byte) : Size.Statement (.adcZpx b) :=
  size_of_length 2 rfl rfl (by decide)
theorem Size.adcAbs (w : Word) : Size.Statement (.adcAbs w) :=
  size_of_length 3 rfl rfl (by decide)
theorem Size.adcAbx (w : Word) : Size.Statement (.adcAbx w) :=
  size_of_length 3 rfl rfl (by decide)
theorem Size.adcAby (w : Word) : Size.Statement (.adcAby w) :=
  size_of_length 3 rfl rfl (by decide)
theorem Size.adcIzx (b : Byte) : Size.Statement (.adcIzx b) :=
  size_of_length 2 rfl rfl (by decide)
theorem Size.adcIzy (b : Byte) : Size.Statement (.adcIzy b) :=
  size_of_length 2 rfl rfl (by decide)
theorem Size.andImm (v : Byte) : Size.Statement (.andImm v) :=
  size_of_length 2 rfl rfl (by decide)
theorem Size.andZp (b : Byte) : Size.Statement (.andZp b) :=
  size_of_length 2 rfl rfl (by decide)
theorem Size.andZpx (b : Byte) : Size.Statement (.andZpx b) :=
  size_of_length 2 rfl rfl (by decide)
theorem Size.andAbs (w : Word) : Size.Statement (.andAbs w) :=
  size_of_length 3 rfl rfl (by decide)
theorem Size.andAbx (w : Word) : Size.Statement (.andAbx w) :=
  size_of_length 3 rfl rfl (by decide)
theorem Size.andAby (w : Word) : Size.Statement (.andAby w) :=
  size_of_length 3 rfl rfl (by decide)
theorem Size.andIzx (b : Byte) : Size.Statement (.andIzx b) :=
  size_of_length 2 rfl rfl (by decide)
theorem Size.andIzy (b : Byte) : Size.Statement (.andIzy b) :=
  size_of_length 2 rfl rfl (by decide)
theorem Size.aslAcc : Size.Statement (.aslAcc) :=
  size_of_length 1 rfl rfl (by decide)
theorem Size.aslZp (b : Byte) : Size.Statement (.aslZp b) :=
  size_of_length 2 rfl rfl (by decide)
theorem Size.aslZpx (b : Byte) : Size.Statement (.aslZpx b) :=
  size_of_length 2 rfl rfl (by decide)
theorem Size.aslAbs (w : Word) : Size.Statement (.aslAbs w) :=
  size_of_length 3 rfl rfl (by decide)
theorem Size.aslAbx (w : Word) : Size.Statement (.aslAbx w) :=
  size_of_length 3 rfl rfl (by decide)
theorem Size.bcc (off : Byte) : Size.Statement (.bcc off) :=
  size_of_length 2 rfl rfl (by decide)
theorem Size.bcs (off : Byte) : Size.Statement (.bcs off) :=
  size_of_length 2 rfl rfl (by decide)
theorem Size.beq (off : Byte) : Size.Statement (.beq off) :=
  size_of_length 2 rfl rfl (by decide)
theorem Size.bitZp (b : Byte) : Size.Statement (.bitZp b) :=
  size_of_length 2 rfl rfl (by decide)
theorem Size.bitAbs (w : Word) : Size.Statement (.bitAbs w) :=
  size_of_length 3 rfl rfl (by decide)
theorem Size.bmi (off : Byte) : Size.Statement (.bmi off) :=
  size_of_length 2 rfl rfl (by decide)
theorem Size.bne (off : Byte) : Size.Statement (.bne off) :=
  size_of_length 2 rfl rfl (by decide)
theorem Size.bpl (off : Byte) : Size.Statement (.bpl off) :=
  size_of_length 2 rfl rfl (by decide)
theorem Size.bvc (off : Byte) : Size.Statement (.bvc off) :=
  size_of_length 2 rfl rfl (by decide)
theorem Size.bvs (off : Byte) : Size.Statement (.bvs off) :=
  size_of_length 2 rfl rfl (by decide)
theorem Size.clc : Size.Statement (.clc) :=
  size_of_length 1 rfl rfl (by decide)
theorem Size.cld : Size.Statement (.cld) :=
  size_of_length 1 rfl rfl (by decide)
theorem Size.cli : Size.Statement (.cli) :=
  size_of_length 1 rfl rfl (by decide)
theorem Size.clv : Size.Statement (.clv) :=
  size_of_length 1 rfl rfl (by decide)
theorem Size.cmpImm (v : Byte) : Size.Statement (.cmpImm v) :=
  size_of_length 2 rfl rfl (by decide)
theorem Size.cmpZp (b : Byte) : Size.Statement (.cmpZp b) :=
  size_of_length 2 rfl rfl (by decide)
theorem Size.cmpZpx (b : Byte) : Size.Statement (.cmpZpx b) :=
  size_of_length 2 rfl rfl (by decide)
theorem Size.cmpAbs (w : Word) : Size.Statement (.cmpAbs w) :=
  size_of_length 3 rfl rfl (by decide)
theorem Size.cmpAbx (w : Word) : Size.Statement (.cmpAbx w) :=
  size_of_length 3 rfl rfl (by decide)
theorem Size.cmpAby (w : Word) : Size.Statement (.cmpAby w) :=
  size_of_length 3 rfl rfl (by decide)
theorem Size.cmpIzx (b : Byte) : Size.Statement (.cmpIzx b) :=
  size_of_length 2 rfl rfl (by decide)
theorem Size.cmpIzy (b : Byte) : Size.Statement (.cmpIzy b) :=
  size_of_length 2 rfl rfl (by decide)
theorem Size.cpxImm (v : Byte) : Size.Statement (.cpxImm v) :=
  size_of_length 2 rfl rfl (by decide)
theorem Size.cpxZp (b : Byte) : Size.Statement (.cpxZp b) :=
  size_of_length 2 rfl rfl (by decide)
theorem Size.cpxAbs (w : Word) : Size.Statement (.cpxAbs w) :=
  size_of_length 3 rfl rfl (by decide)
theorem Size.cpyImm (v : Byte) : Size.Statement (.cpyImm v) :=
  size_of_length 2 rfl rfl (by decide)
theorem Size.cpyZp (b : Byte) : Size.Statement (.cpyZp b) :=
  size_of_length 2 rfl rfl (by decide)
theorem Size.cpyAbs (w : Word) : Size.Statement (.cpyAbs w) :=
  size_of_length 3 rfl rfl (by decide)
theorem Size.decZp (b : Byte) : Size.Statement (.decZp b) :=
  size_of_length 2 rfl rfl (by decide)
theorem Size.decZpx (b : Byte) : Size.Statement (.decZpx b) :=
  size_of_length 2 rfl rfl (by decide)
theorem Size.decAbs (w : Word) : Size.Statement (.decAbs w) :=
  size_of_length 3 rfl rfl (by decide)
theorem Size.decAbx (w : Word) : Size.Statement (.decAbx w) :=
  size_of_length 3 rfl rfl (by decide)
theorem Size.dex : Size.Statement (.dex) :=
  size_of_length 1 rfl rfl (by decide)
theorem Size.dey : Size.Statement (.dey) :=
  size_of_length 1 rfl rfl (by decide)
theorem Size.eorImm (v : Byte) : Size.Statement (.eorImm v) :=
  size_of_length 2 rfl rfl (by decide)
theorem Size.eorZp (b : Byte) : Size.Statement (.eorZp b) :=
  size_of_length 2 rfl rfl (by decide)
theorem Size.eorZpx (b : Byte) : Size.Statement (.eorZpx b) :=
  size_of_length 2 rfl rfl (by decide)
theorem Size.eorAbs (w : Word) : Size.Statement (.eorAbs w) :=
  size_of_length 3 rfl rfl (by decide)
theorem Size.eorAbx (w : Word) : Size.Statement (.eorAbx w) :=
  size_of_length 3 rfl rfl (by decide)
theorem Size.eorAby (w : Word) : Size.Statement (.eorAby w) :=
  size_of_length 3 rfl rfl (by decide)
theorem Size.eorIzx (b : Byte) : Size.Statement (.eorIzx b) :=
  size_of_length 2 rfl rfl (by decide)
theorem Size.eorIzy (b : Byte) : Size.Statement (.eorIzy b) :=
  size_of_length 2 rfl rfl (by decide)
theorem Size.hlt : Size.Statement (.hlt) :=
  size_of_length 1 rfl rfl (by decide)
theorem Size.incZp (b : Byte) : Size.Statement (.incZp b) :=
  size_of_length 2 rfl rfl (by decide)
theorem Size.incZpx (b : Byte) : Size.Statement (.incZpx b) :=
  size_of_length 2 rfl rfl (by decide)
theorem Size.incAbs (w : Word) : Size.Statement (.incAbs w) :=
  size_of_length 3 rfl rfl (by decide)
theorem Size.incAbx (w : Word) : Size.Statement (.incAbx w) :=
  size_of_length 3 rfl rfl (by decide)
theorem Size.inx : Size.Statement (.inx) :=
  size_of_length 1 rfl rfl (by decide)
theorem Size.iny : Size.Statement (.iny) :=
  size_of_length 1 rfl rfl (by decide)
theorem Size.jmpAbs (w : Word) : Size.Statement (.jmpAbs w) :=
  size_of_length 3 rfl rfl (by decide)
theorem Size.jmpInd (w : Word) : Size.Statement (.jmpInd w) :=
  size_of_length 3 rfl rfl (by decide)
theorem Size.jsr (w : Word) : Size.Statement (.jsr w) :=
  size_of_length 3 rfl rfl (by decide)
theorem Size.ldaImm (v : Byte) : Size.Statement (.ldaImm v) :=
  size_of_length 2 rfl rfl (by decide)
theorem Size.ldaZp (b : Byte) : Size.Statement (.ldaZp b) :=
  size_of_length 2 rfl rfl (by decide)
theorem Size.ldaZpx (b : Byte) : Size.Statement (.ldaZpx b) :=
  size_of_length 2 rfl rfl (by decide)
theorem Size.ldaAbs (w : Word) : Size.Statement (.ldaAbs w) :=
  size_of_length 3 rfl rfl (by decide)
theorem Size.ldaAbx (w : Word) : Size.Statement (.ldaAbx w) :=
  size_of_length 3 rfl rfl (by decide)
theorem Size.ldaAby (w : Word) : Size.Statement (.ldaAby w) :=
  size_of_length 3 rfl rfl (by decide)
theorem Size.ldaIzx (b : Byte) : Size.Statement (.ldaIzx b) :=
  size_of_length 2 rfl rfl (by decide)
theorem Size.ldaIzy (b : Byte) : Size.Statement (.ldaIzy b) :=
  size_of_length 2 rfl rfl (by decide)
theorem Size.ldxImm (v : Byte) : Size.Statement (.ldxImm v) :=
  size_of_length 2 rfl rfl (by decide)
theorem Size.ldxZp (b : Byte) : Size.Statement (.ldxZp b) :=
  size_of_length 2 rfl rfl (by decide)
theorem Size.ldxZpy (b : Byte) : Size.Statement (.ldxZpy b) :=
  size_of_length 2 rfl rfl (by decide)
theorem Size.ldxAbs (w : Word) : Size.Statement (.ldxAbs w) :=
  size_of_length 3 rfl rfl (by decide)
theorem Size.ldxAby (w : Word) : Size.Statement (.ldxAby w) :=
  size_of_length 3 rfl rfl (by decide)
theorem Size.ldyImm (v : Byte) : Size.Statement (.ldyImm v) :=
  size_of_length 2 rfl rfl (by decide)
theorem Size.ldyZp (b : Byte) : Size.Statement (.ldyZp b) :=
  size_of_length 2 rfl rfl (by decide)
theorem Size.ldyZpx (b : Byte) : Size.Statement (.ldyZpx b) :=
  size_of_length 2 rfl rfl (by decide)
theorem Size.ldyAbs (w : Word) : Size.Statement (.ldyAbs w) :=
  size_of_length 3 rfl rfl (by decide)
theorem Size.ldyAbx (w : Word) : Size.Statement (.ldyAbx w) :=
  size_of_length 3 rfl rfl (by decide)
theorem Size.lsrAcc : Size.Statement (.lsrAcc) :=
  size_of_length 1 rfl rfl (by decide)
theorem Size.lsrZp (b : Byte) : Size.Statement (.lsrZp b) :=
  size_of_length 2 rfl rfl (by decide)
theorem Size.lsrZpx (b : Byte) : Size.Statement (.lsrZpx b) :=
  size_of_length 2 rfl rfl (by decide)
theorem Size.lsrAbs (w : Word) : Size.Statement (.lsrAbs w) :=
  size_of_length 3 rfl rfl (by decide)
theorem Size.lsrAbx (w : Word) : Size.Statement (.lsrAbx w) :=
  size_of_length 3 rfl rfl (by decide)
theorem Size.nop : Size.Statement (.nop) :=
  size_of_length 1 rfl rfl (by decide)
theorem Size.oraImm (v : Byte) : Size.Statement (.oraImm v) :=
  size_of_length 2 rfl rfl (by decide)
theorem Size.oraZp (b : Byte) : Size.Statement (.oraZp b) :=
  size_of_length 2 rfl rfl (by decide)
theorem Size.oraZpx (b : Byte) : Size.Statement (.oraZpx b) :=
  size_of_length 2 rfl rfl (by decide)
theorem Size.oraAbs (w : Word) : Size.Statement (.oraAbs w) :=
  size_of_length 3 rfl rfl (by decide)
theorem Size.oraAbx (w : Word) : Size.Statement (.oraAbx w) :=
  size_of_length 3 rfl rfl (by decide)
theorem Size.oraAby (w : Word) : Size.Statement (.oraAby w) :=
  size_of_length 3 rfl rfl (by decide)
theorem Size.oraIzx (b : Byte) : Size.Statement (.oraIzx b) :=
  size_of_length 2 rfl rfl (by decide)
theorem Size.oraIzy (b : Byte) : Size.Statement (.oraIzy b) :=
  size_of_length 2 rfl rfl (by decide)
theorem Size.pha : Size.Statement (.pha) :=
  size_of_length 1 rfl rfl (by decide)
theorem Size.php : Size.Statement (.php) :=
  size_of_length 1 rfl rfl (by decide)
theorem Size.pla : Size.Statement (.pla) :=
  size_of_length 1 rfl rfl (by decide)
theorem Size.plp : Size.Statement (.plp) :=
  size_of_length 1 rfl rfl (by decide)
theorem Size.rolAcc : Size.Statement (.rolAcc) :=
  size_of_length 1 rfl rfl (by decide)
theorem Size.rolZp (b : Byte) : Size.Statement (.rolZp b) :=
  size_of_length 2 rfl rfl (by decide)
theorem Size.rolZpx (b : Byte) : Size.Statement (.rolZpx b) :=
  size_of_length 2 rfl rfl (by decide)
theorem Size.rolAbs (w : Word) : Size.Statement (.rolAbs w) :=
  size_of_length 3 rfl rfl (by decide)
theorem Size.rolAbx (w : Word) : Size.Statement (.rolAbx w) :=
  size_of_length 3 rfl rfl (by decide)
theorem Size.rorAcc : Size.Statement (.rorAcc) :=
  size_of_length 1 rfl rfl (by decide)
theorem Size.rorZp (b : Byte) : Size.Statement (.rorZp b) :=
  size_of_length 2 rfl rfl (by decide)
theorem Size.rorZpx (b : Byte) : Size.Statement (.rorZpx b) :=
  size_of_length 2 rfl rfl (by decide)
theorem Size.rorAbs (w : Word) : Size.Statement (.rorAbs w) :=
  size_of_length 3 rfl rfl (by decide)
theorem Size.rorAbx (w : Word) : Size.Statement (.rorAbx w) :=
  size_of_length 3 rfl rfl (by decide)
theorem Size.rti : Size.Statement (.rti) :=
  size_of_length 1 rfl rfl (by decide)
theorem Size.rts : Size.Statement (.rts) :=
  size_of_length 1 rfl rfl (by decide)
theorem Size.sbcImm (v : Byte) : Size.Statement (.sbcImm v) :=
  size_of_length 2 rfl rfl (by decide)
theorem Size.sbcZp (b : Byte) : Size.Statement (.sbcZp b) :=
  size_of_length 2 rfl rfl (by decide)
theorem Size.sbcZpx (b : Byte) : Size.Statement (.sbcZpx b) :=
  size_of_length 2 rfl rfl (by decide)
theorem Size.sbcAbs (w : Word) : Size.Statement (.sbcAbs w) :=
  size_of_length 3 rfl rfl (by decide)
theorem Size.sbcAbx (w : Word) : Size.Statement (.sbcAbx w) :=
  size_of_length 3 rfl rfl (by decide)
theorem Size.sbcAby (w : Word) : Size.Statement (.sbcAby w) :=
  size_of_length 3 rfl rfl (by decide)
theorem Size.sbcIzx (b : Byte) : Size.Statement (.sbcIzx b) :=
  size_of_length 2 rfl rfl (by decide)
theorem Size.sbcIzy (b : Byte) : Size.Statement (.sbcIzy b) :=
  size_of_length 2 rfl rfl (by decide)
theorem Size.sec : Size.Statement (.sec) :=
  size_of_length 1 rfl rfl (by decide)
theorem Size.sed : Size.Statement (.sed) :=
  size_of_length 1 rfl rfl (by decide)
theorem Size.sei : Size.Statement (.sei) :=
  size_of_length 1 rfl rfl (by decide)
theorem Size.staZp (b : Byte) : Size.Statement (.staZp b) :=
  size_of_length 2 rfl rfl (by decide)
theorem Size.staZpx (b : Byte) : Size.Statement (.staZpx b) :=
  size_of_length 2 rfl rfl (by decide)
theorem Size.staAbs (w : Word) : Size.Statement (.staAbs w) :=
  size_of_length 3 rfl rfl (by decide)
theorem Size.staAbx (w : Word) : Size.Statement (.staAbx w) :=
  size_of_length 3 rfl rfl (by decide)
theorem Size.staAby (w : Word) : Size.Statement (.staAby w) :=
  size_of_length 3 rfl rfl (by decide)
theorem Size.staIzx (b : Byte) : Size.Statement (.staIzx b) :=
  size_of_length 2 rfl rfl (by decide)
theorem Size.staIzy (b : Byte) : Size.Statement (.staIzy b) :=
  size_of_length 2 rfl rfl (by decide)
theorem Size.stxZp (b : Byte) : Size.Statement (.stxZp b) :=
  size_of_length 2 rfl rfl (by decide)
theorem Size.stxZpy (b : Byte) : Size.Statement (.stxZpy b) :=
  size_of_length 2 rfl rfl (by decide)
theorem Size.stxAbs (w : Word) : Size.Statement (.stxAbs w) :=
  size_of_length 3 rfl rfl (by decide)
theorem Size.styZp (b : Byte) : Size.Statement (.styZp b) :=
  size_of_length 2 rfl rfl (by decide)
theorem Size.styZpx (b : Byte) : Size.Statement (.styZpx b) :=
  size_of_length 2 rfl rfl (by decide)
theorem Size.styAbs (w : Word) : Size.Statement (.styAbs w) :=
  size_of_length 3 rfl rfl (by decide)
theorem Size.tax : Size.Statement (.tax) :=
  size_of_length 1 rfl rfl (by decide)
theorem Size.tay : Size.Statement (.tay) :=
  size_of_length 1 rfl rfl (by decide)
theorem Size.tsx : Size.Statement (.tsx) :=
  size_of_length 1 rfl rfl (by decide)
theorem Size.txa : Size.Statement (.txa) :=
  size_of_length 1 rfl rfl (by decide)
theorem Size.txs : Size.Statement (.txs) :=
  size_of_length 1 rfl rfl (by decide)
theorem Size.tya : Size.Statement (.tya) :=
  size_of_length 1 rfl rfl (by decide)
theorem Size.illegal (op : Byte) : Size.Statement (.illegal op) :=
  size_of_length 1 rfl rfl (by decide)

end Sys2Proof.Laws
end

