-- ==== Sys2Proof/Tests/Slice0.lean ====
section
/-! SUPPORT. Tests: the check of well-formedness, the words of the encoding tables, single steps from the vectors of
95_test_vectors.md, and for every statement with hypotheses a state that meets them. -/

namespace Sys2Proof.Tests

open Sys2Proof Sys2Proof.Machine

-- ==== well-formedness ====

/-- A documented byte is no `illegal` instruction, an undocumented one is (30 R76). -/
theorem test_wellFormed_refuses_documented :
    wellFormed (.illegal 0xA9) = false ∧ wellFormed (.illegal 0x00) = false ∧ wellFormed (.illegal 0xEA) = false := by
  decide

theorem test_wellFormed_accepts : wellFormed (.illegal 0x02) = true ∧ wellFormed (.ldaAbs 0xFFFF) = true := by decide

-- ==== decoding ====

/-- These bytes decode to this instruction, nothing left, and the instruction encodes to them. -/
def isWord (l : List Byte) (i : Instr) : Bool :=
  match decode l with
  | .ok (j, []) => j == i && encode i == l
  | _ => false

/-- An opcode with no operand. -/
def byte1 (op : Byte) (i : Instr) : Bool := isWord [op] i

/-- An opcode with the operand byte 0x9C. -/
def byte2 (op : Byte) (i : Instr) : Bool := isWord [op, 0x9C] i

/-- An opcode with the operand word 0xF234, low byte first (20 R43, 40 R103). -/
def byte3 (op : Byte) (i : Instr) : Bool := isWord [op, 0x34, 0xF2] i

/-- The words of the arithmetic family, from spec/opcode_table.json (30 R71, R74). -/
theorem test_decode_arithmetic :
    (byte2 0x69 (.adcImm 0x9C) && byte2 0x65 (.adcZp 0x9C) && byte2 0x75 (.adcZpx 0x9C) &&
      byte3 0x6D (.adcAbs 0xF234) && byte3 0x7D (.adcAbx 0xF234) && byte3 0x79 (.adcAby 0xF234) &&
      byte2 0x61 (.adcIzx 0x9C) && byte2 0x71 (.adcIzy 0x9C) && byte2 0xE9 (.sbcImm 0x9C) &&
      byte2 0xE5 (.sbcZp 0x9C) && byte2 0xF5 (.sbcZpx 0x9C) && byte3 0xED (.sbcAbs 0xF234) &&
      byte3 0xFD (.sbcAbx 0xF234) && byte3 0xF9 (.sbcAby 0xF234) && byte2 0xE1 (.sbcIzx 0x9C) &&
      byte2 0xF1 (.sbcIzy 0x9C) && byte2 0x29 (.andImm 0x9C) && byte2 0x25 (.andZp 0x9C) &&
      byte2 0x35 (.andZpx 0x9C) && byte3 0x2D (.andAbs 0xF234) && byte3 0x3D (.andAbx 0xF234) &&
      byte3 0x39 (.andAby 0xF234) && byte2 0x21 (.andIzx 0x9C) && byte2 0x31 (.andIzy 0x9C) &&
      byte2 0x09 (.oraImm 0x9C) && byte2 0x05 (.oraZp 0x9C) && byte2 0x15 (.oraZpx 0x9C) &&
      byte3 0x0D (.oraAbs 0xF234) && byte3 0x1D (.oraAbx 0xF234) && byte3 0x19 (.oraAby 0xF234) &&
      byte2 0x01 (.oraIzx 0x9C) && byte2 0x11 (.oraIzy 0x9C) && byte2 0x49 (.eorImm 0x9C) &&
      byte2 0x45 (.eorZp 0x9C) && byte2 0x55 (.eorZpx 0x9C) && byte3 0x4D (.eorAbs 0xF234) &&
      byte3 0x5D (.eorAbx 0xF234) && byte3 0x59 (.eorAby 0xF234) && byte2 0x41 (.eorIzx 0x9C) &&
      byte2 0x51 (.eorIzy 0x9C) && byte2 0xC9 (.cmpImm 0x9C) && byte2 0xC5 (.cmpZp 0x9C) &&
      byte2 0xD5 (.cmpZpx 0x9C) && byte3 0xCD (.cmpAbs 0xF234) && byte3 0xDD (.cmpAbx 0xF234) &&
      byte3 0xD9 (.cmpAby 0xF234) && byte2 0xC1 (.cmpIzx 0x9C) && byte2 0xD1 (.cmpIzy 0x9C) &&
      byte2 0xE0 (.cpxImm 0x9C) && byte2 0xE4 (.cpxZp 0x9C) && byte3 0xEC (.cpxAbs 0xF234) &&
      byte2 0xC0 (.cpyImm 0x9C) && byte2 0xC4 (.cpyZp 0x9C) && byte3 0xCC (.cpyAbs 0xF234) &&
      byte2 0x24 (.bitZp 0x9C) && byte3 0x2C (.bitAbs 0xF234)) = true := by decide

/-- The words of the shift family, from spec/opcode_table.json (30 R71, R74). -/
theorem test_decode_shift :
    (byte1 0x0A .aslAcc && byte2 0x06 (.aslZp 0x9C) && byte2 0x16 (.aslZpx 0x9C) &&
      byte3 0x0E (.aslAbs 0xF234) && byte3 0x1E (.aslAbx 0xF234) && byte1 0x4A .lsrAcc &&
      byte2 0x46 (.lsrZp 0x9C) && byte2 0x56 (.lsrZpx 0x9C) && byte3 0x4E (.lsrAbs 0xF234) &&
      byte3 0x5E (.lsrAbx 0xF234) && byte1 0x2A .rolAcc && byte2 0x26 (.rolZp 0x9C) &&
      byte2 0x36 (.rolZpx 0x9C) && byte3 0x2E (.rolAbs 0xF234) && byte3 0x3E (.rolAbx 0xF234) &&
      byte1 0x6A .rorAcc && byte2 0x66 (.rorZp 0x9C) && byte2 0x76 (.rorZpx 0x9C) &&
      byte3 0x6E (.rorAbs 0xF234) && byte3 0x7E (.rorAbx 0xF234) && byte2 0xE6 (.incZp 0x9C) &&
      byte2 0xF6 (.incZpx 0x9C) && byte3 0xEE (.incAbs 0xF234) && byte3 0xFE (.incAbx 0xF234) &&
      byte2 0xC6 (.decZp 0x9C) && byte2 0xD6 (.decZpx 0x9C) && byte3 0xCE (.decAbs 0xF234) &&
      byte3 0xDE (.decAbx 0xF234) && byte1 0xE8 .inx && byte1 0xC8 .iny && byte1 0xCA .dex && byte1 0x88 .dey) = true := by decide

/-- The words of the flag family, from spec/opcode_table.json (30 R71, R74). -/
theorem test_decode_flag :
    (byte1 0x18 .clc && byte1 0x38 .sec && byte1 0x58 .cli && byte1 0x78 .sei && byte1 0xD8 .cld &&
      byte1 0xF8 .sed && byte1 0xB8 .clv) = true := by decide

/-- The words of the stack family, from spec/opcode_table.json (30 R71, R74). -/
theorem test_decode_stack :
    (byte1 0x48 .pha && byte1 0x68 .pla && byte1 0x08 .php && byte1 0x28 .plp && byte1 0x9A .txs &&
      byte1 0xBA .tsx && byte3 0x20 (.jsr 0xF234) && byte1 0x60 .rts && byte1 0x40 .rti) = true := by decide

/-- The words of the transfer family, from spec/opcode_table.json (30 R71, R74). -/
theorem test_decode_transfer :
    (byte2 0xA9 (.ldaImm 0x9C) && byte2 0xA5 (.ldaZp 0x9C) && byte2 0xB5 (.ldaZpx 0x9C) &&
      byte3 0xAD (.ldaAbs 0xF234) && byte3 0xBD (.ldaAbx 0xF234) && byte3 0xB9 (.ldaAby 0xF234) &&
      byte2 0xA1 (.ldaIzx 0x9C) && byte2 0xB1 (.ldaIzy 0x9C) && byte2 0xA2 (.ldxImm 0x9C) &&
      byte2 0xA6 (.ldxZp 0x9C) && byte2 0xB6 (.ldxZpy 0x9C) && byte3 0xAE (.ldxAbs 0xF234) &&
      byte3 0xBE (.ldxAby 0xF234) && byte2 0xA0 (.ldyImm 0x9C) && byte2 0xA4 (.ldyZp 0x9C) &&
      byte2 0xB4 (.ldyZpx 0x9C) && byte3 0xAC (.ldyAbs 0xF234) && byte3 0xBC (.ldyAbx 0xF234) &&
      byte2 0x85 (.staZp 0x9C) && byte2 0x95 (.staZpx 0x9C) && byte3 0x8D (.staAbs 0xF234) &&
      byte3 0x9D (.staAbx 0xF234) && byte3 0x99 (.staAby 0xF234) && byte2 0x81 (.staIzx 0x9C) &&
      byte2 0x91 (.staIzy 0x9C) && byte2 0x86 (.stxZp 0x9C) && byte2 0x96 (.stxZpy 0x9C) &&
      byte3 0x8E (.stxAbs 0xF234) && byte2 0x84 (.styZp 0x9C) && byte2 0x94 (.styZpx 0x9C) &&
      byte3 0x8C (.styAbs 0xF234) && byte1 0xAA .tax && byte1 0xA8 .tay && byte1 0x8A .txa && byte1 0x98 .tya) = true := by decide

/-- The words of the control family, from spec/opcode_table.json (30 R71, R74). -/
theorem test_decode_control :
    (byte3 0x4C (.jmpAbs 0xF234) && byte3 0x6C (.jmpInd 0xF234) && byte2 0x10 (.bpl 0x9C) &&
      byte2 0x30 (.bmi 0x9C) && byte2 0x50 (.bvc 0x9C) && byte2 0x70 (.bvs 0x9C) && byte2 0x90 (.bcc 0x9C) &&
      byte2 0xB0 (.bcs 0x9C) && byte2 0xD0 (.bne 0x9C) && byte2 0xF0 (.beq 0x9C) && byte1 0xEA .nop &&
      byte1 0x00 .hlt) = true := by decide

/-- Bytes with no entry take no operand byte (30 R76). -/
theorem test_decode_illegal :
    (byte1 0x02 (.illegal 0x02) && byte1 0x80 (.illegal 0x80) && byte1 0xFF (.illegal 0xFF)) = true := by decide

/-- A list that ends before its operand does not decode, by name. -/
theorem test_decode_truncated :
    (match decode [0x8D, 0x00] with | .error e => e == .noOperand 0x8D | .ok _ => false) = true ∧
    (match decode [] with | .error e => e == .noOpcode | .ok _ => false) = true := by decide

/-- The table word of JSR with its operand bits, and of JSR with none (opcode_table.json, row 0x20). -/
theorem test_table_word : decodeTableWord 24 0x123420 = some (.jsr 0x1234) ∧ decodeTableWord 8 0x123420 = some (.jsr 0) := by
  decide

-- ==== memory ====

/-- Writing what an unlisted cell reads as removes the entry (log entry 2). -/
theorem test_memory_canonical :
    Memory.write (Memory.write (Memory.write [] 0x0300 0x01) 0x0010 0x02) 0x0300 0x00 = [(0x0010, 0x02)] := by decide

-- ==== single steps, from 95_test_vectors.md section 2 ====

/-- The default start state of the vectors: FlatRAM64K, SP = 0xFF, bytes at PC, and the cells listed. -/
def start (pc : Word) (bytes : List Byte) (cells : List Host.Cell) : State :=
  { State.reset with
    sp := 0xFF, pc := pc
    mem := Memory.load pc.toNat bytes (cells.foldl (fun m c => Memory.put m c.1 c.2) []) }

/-- A bus that services everything but `a`, where it services what it is told. -/
def refusing (a : Nat) (reads writes : Bool) : Bus :=
  ⟨[⟨.read, a, 1, if reads then .memory else .refuse, none, none, none⟩,
    ⟨.write, a, 1, if writes then .memory else .refuse, none, none, none⟩] ++ Bus.flatRam64K.cases⟩

def r (a : Word) (v : Byte) : BusAccess := ⟨.read, a, v⟩

def w (a : Word) (v : Byte) : BusAccess := ⟨.write, a, v⟩

/-- One step ends in these registers and run state, having made these accesses in this order, every byte written being
in memory. -/
def ends (s : State) (a x y sp p : Byte) (pc : Word) (run : RunState) (l : List BusAccess) : Bool :=
  match step s with
  | .next t =>
    [t.a, t.x, t.y, t.sp, t.p] == [a, x, y, sp, p] && t.pc == pc && t.run == run && t.trace == l.reverse &&
      l.all fun q => q.kind == .read || t.mem.read q.addr == q.value
  | _ => false

/-- V2: ZP: EA = 0x0010 (rule R107). -/
theorem test_v002_ldaZp : ends (start 0x0200 [0xA5, 0x10] [(0x0010, 0x37)])
    0x37 0x00 0x00 0xFF 0x00 0x0202 .running [r 0x0200 0xA5, r 0x0201 0x10, r 0x0010 0x37] = true := by decide

/-- V3: ZPX wraps in page 0: 0xF0 + 0x20 = 0x10, not 0x0110 (rule R108). -/
theorem test_v003_ldaZpx : ends { start 0x0200 [0xB5, 0xF0] [(0x0010, 0x55), (0x0110, 0xEE)] with x := 0x20 }
    0x55 0x20 0x00 0xFF 0x00 0x0202 .running [r 0x0200 0xB5, r 0x0201 0xF0, r 0x0010 0x55] = true := by decide

/-- V4: ZPY wraps: 0xFF + 1 = 0x00 (rule R109, rule R201). -/
theorem test_v004_ldxZpy : ends { start 0x0200 [0xB6, 0xFF] [(0x0000, 0x66), (0x0100, 0xEE)] with y := 0x01 }
    0x00 0x66 0x01 0xFF 0x00 0x0202 .running [r 0x0200 0xB6, r 0x0201 0xFF, r 0x0000 0x66] = true := by decide

/-- V5: ABS: little-endian operand (rule R110). -/
theorem test_v005_ldaAbs : ends (start 0x0200 [0xAD, 0x34, 0x12] [(0x1234, 0x99)])
    0x99 0x00 0x00 0xFF 0x80 0x0203 .running [r 0x0200 0xAD, r 0x0201 0x34, r 0x0202 0x12, r 0x1234 0x99] = true := by decide

/-- V6: ABX crosses a page; no extra access (rule R111). -/
theorem test_v006_ldaAbx : ends { start 0x0200 [0xBD, 0xFF, 0x20] [(0x2100, 0x77)] with x := 0x01 }
    0x77 0x01 0x00 0xFF 0x00 0x0203 .running [r 0x0200 0xBD, r 0x0201 0xFF, r 0x0202 0x20, r 0x2100 0x77] = true := by decide

/-- V7: ABX wraps modulo 65536: 0xFFFF + 2 = 0x0001 (rule R111). -/
theorem test_v007_ldaAbx : ends { start 0x0200 [0xBD, 0xFF, 0xFF] [(0x0001, 0x5A)] with x := 0x02 }
    0x5A 0x02 0x00 0xFF 0x00 0x0203 .running [r 0x0200 0xBD, r 0x0201 0xFF, r 0x0202 0xFF, r 0x0001 0x5A] = true := by decide

/-- V8: ABY; loaded 0x80 sets N (rule R112). -/
theorem test_v008_ldaAby : ends { start 0x0200 [0xB9, 0x00, 0x20] [(0x20FF, 0x80)] with y := 0xFF }
    0x80 0x00 0xFF 0xFF 0x80 0x0203 .running [r 0x0200 0xB9, r 0x0201 0x00, r 0x0202 0x20, r 0x20FF 0x80] = true := by decide

/-- V9: IZX: pointer 0xFF, high byte from 0x0000 (wrap), not 0x0100 (rule R113). -/
theorem test_v009_ldaIzx : ends { start 0x0200 [0xA1, 0xFE] [(0x0000, 0x12), (0x00FF, 0x34), (0x0100, 0xEE), (0x1234, 0xAB)] with x := 0x01 }
    0xAB 0x01 0x00 0xFF 0x80 0x0202 .running [r 0x0200 0xA1, r 0x0201 0xFE, r 0x00FF 0x34, r 0x0000 0x12, r 0x1234 0xAB] = true := by decide

/-- V11: IZY: pointer wraps in page 0, and base 0xFFF8 + 0x10 wraps to 0x0008 (rule R114). -/
theorem test_v011_ldaIzy : ends { start 0x0200 [0xB1, 0xFF] [(0x0000, 0xFF), (0x0008, 0x3C), (0x00FF, 0xF8), (0x0100, 0xEE)] with y := 0x10 }
    0x3C 0x00 0x10 0xFF 0x00 0x0202 .running [r 0x0200 0xB1, r 0x0201 0xFF, r 0x00FF 0xF8, r 0x0000 0xFF, r 0x0008 0x3C] = true := by decide

/-- V12: IND, ordinary case: PC = 0x8040 (rule R115, rule R220). -/
theorem test_v012_jmpInd : ends (start 0x0200 [0x6C, 0x00, 0x30] [(0x3000, 0x40), (0x3001, 0x80)])
    0x00 0x00 0x00 0xFF 0x00 0x8040 .running [r 0x0200 0x6C, r 0x0201 0x00, r 0x0202 0x30, r 0x3000 0x40, r 0x3001 0x80] = true := by decide

/-- V13: IND page-wrap quirk: high byte from 0x3000, not 0x3100 (rule R115). -/
theorem test_v013_jmpInd : ends (start 0x0200 [0x6C, 0xFF, 0x30] [(0x3000, 0x80), (0x30FF, 0x40), (0x3100, 0x50)])
    0x00 0x00 0x00 0xFF 0x00 0x8040 .running [r 0x0200 0x6C, r 0x0201 0xFF, r 0x0202 0x30, r 0x30FF 0x40, r 0x3000 0x80] = true := by decide

/-- V14: IZY store: EA = 0x02FF + 1 = 0x0300; EA is written, not read (rule R114, rule R203). -/
theorem test_v014_staIzy : ends { start 0x0200 [0x91, 0x20] [(0x0020, 0xFF), (0x0021, 0x02)] with a := 0x5A, y := 0x01 }
    0x5A 0x00 0x01 0xFF 0x00 0x0202 .running [r 0x0200 0x91, r 0x0201 0x20, r 0x0020 0xFF, r 0x0021 0x02, w 0x0300 0x5A] = true := by decide

/-- V19: ADC: -128 + -128: C, V and Z all set (rule R131). -/
theorem test_v019_adcImm : ends { start 0x0200 [0x69, 0x80] [] with a := 0x80, p := 0x00 }
    0x00 0x00 0x00 0xFF 0x43 0x0202 .running [r 0x0200 0x69, r 0x0201 0x80] = true := by decide

/-- V26: SBC: 0x50 - 0xB0: borrow and overflow (rule R132). -/
theorem test_v026_sbcImm : ends { start 0x0200 [0xE9, 0xB0] [] with a := 0x50, p := 0x01 }
    0xA0 0x00 0x00 0xFF 0xC0 0x0202 .running [r 0x0200 0xE9, r 0x0201 0xB0] = true := by decide

/-- V32: ADC with D = 1 is binary: 0x0A, not 0x10; D stays set (rule R141). -/
theorem test_v032_adcImm : ends { start 0x0200 [0x69, 0x01] [] with a := 0x09, p := 0x08 }
    0x0A 0x00 0x00 0xFF 0x08 0x0202 .running [r 0x0200 0x69, r 0x0201 0x01] = true := by decide

/-- V33: SBC with D = 1 is binary: 0x0F, not 0x09 (rule R141). -/
theorem test_v033_sbcImm : ends { start 0x0200 [0xE9, 0x01] [] with a := 0x10, p := 0x09 }
    0x0F 0x00 0x00 0xFF 0x09 0x0202 .running [r 0x0200 0xE9, r 0x0201 0x01] = true := by decide

/-- V35: AND to zero; C and V untouched (rule R133). -/
theorem test_v035_andImm : ends { start 0x0200 [0x29, 0x0F] [] with a := 0xF0, p := 0x41 }
    0x00 0x00 0x00 0xFF 0x43 0x0202 .running [r 0x0200 0x29, r 0x0201 0x0F] = true := by decide

/-- V36: ORA sets N (rule R134). -/
theorem test_v036_oraImm : ends { start 0x0200 [0x09, 0x01] [] with a := 0x80 }
    0x81 0x00 0x00 0xFF 0x80 0x0202 .running [r 0x0200 0x09, r 0x0201 0x01] = true := by decide

/-- V37: EOR to zero clears N, sets Z (rule R135). -/
theorem test_v037_eorImm : ends { start 0x0200 [0x49, 0xFF] [] with a := 0xFF, p := 0x80 }
    0x00 0x00 0x00 0xFF 0x02 0x0202 .running [r 0x0200 0x49, r 0x0201 0xFF] = true := by decide

/-- V38: EOR to 0xFF (rule R135). -/
theorem test_v038_eorImm : ends { start 0x0200 [0x49, 0xAA] [] with a := 0x55 }
    0xFF 0x00 0x00 0xFF 0x80 0x0202 .running [r 0x0200 0x49, r 0x0201 0xAA] = true := by decide

/-- V43: 0xFF against 0: C = 1 and N = 1 together (rule R137). -/
theorem test_v043_cmpImm : ends { start 0x0200 [0xC9, 0x00] [] with a := 0xFF }
    0xFF 0x00 0x00 0xFF 0x81 0x0202 .running [r 0x0200 0xC9, r 0x0201 0x00] = true := by decide

/-- V44: 0x80 against 1: 0x7F, C = 1, N = 0 (unsigned compare) (rule R137). -/
theorem test_v044_cmpImm : ends { start 0x0200 [0xC9, 0x01] [] with a := 0x80 }
    0x80 0x00 0x00 0xFF 0x01 0x0202 .running [r 0x0200 0xC9, r 0x0201 0x01] = true := by decide

/-- V45: CPX less (rule R138). -/
theorem test_v045_cpxImm : ends { start 0x0200 [0xE0, 0x05] [] with x := 0x04 }
    0x00 0x04 0x00 0xFF 0x80 0x0202 .running [r 0x0200 0xE0, r 0x0201 0x05] = true := by decide

/-- V46: CPY zero page, equal (rule R139). -/
theorem test_v046_cpyZp : ends { start 0x0200 [0xC4, 0x10] [(0x0010, 0x7F)] with y := 0x7F }
    0x00 0x00 0x7F 0xFF 0x03 0x0202 .running [r 0x0200 0xC4, r 0x0201 0x10, r 0x0010 0x7F] = true := by decide

/-- V47: BIT: Z = 1 with N = 1 and V = 1 from the operand (rule R140). -/
theorem test_v047_bitZp : ends { start 0x0200 [0x24, 0x40] [(0x0040, 0xC0)] with a := 0x01 }
    0x01 0x00 0x00 0xFF 0xC2 0x0202 .running [r 0x0200 0x24, r 0x0201 0x40, r 0x0040 0xC0] = true := by decide

/-- V48: BIT: Z = 0, V = 1, N = 0 (rule R140). -/
theorem test_v048_bitZp : ends { start 0x0200 [0x24, 0x40] [(0x0040, 0x41)] with a := 0x0F }
    0x0F 0x00 0x00 0xFF 0x40 0x0202 .running [r 0x0200 0x24, r 0x0201 0x40, r 0x0040 0x41] = true := by decide

/-- V50: ASL A: bit 7 to C, result zero (rule R150). -/
theorem test_v050_aslAcc : ends { start 0x0200 [0x0A] [] with a := 0x80, p := 0x00 }
    0x00 0x00 0x00 0xFF 0x03 0x0201 .running [r 0x0200 0x0A] = true := by decide

/-- V51: ASL A: carry in ignored, bit 0 becomes 0 (rule R150). -/
theorem test_v051_aslAcc : ends { start 0x0200 [0x0A] [] with a := 0x41, p := 0x01 }
    0x82 0x00 0x00 0xFF 0x80 0x0201 .running [r 0x0200 0x0A] = true := by decide

/-- V52: LSR A: bit 0 to C, result zero (rule R151). -/
theorem test_v052_lsrAcc : ends { start 0x0200 [0x4A] [] with a := 0x01 }
    0x00 0x00 0x00 0xFF 0x03 0x0201 .running [r 0x0200 0x4A] = true := by decide

/-- V53: LSR A: N always cleared (rule R151). -/
theorem test_v053_lsrAcc : ends { start 0x0200 [0x4A] [] with a := 0x80, p := 0x81 }
    0x40 0x00 0x00 0xFF 0x00 0x0201 .running [r 0x0200 0x4A] = true := by decide

/-- V54: ROL A: C in to bit 0, bit 7 to C (rule R152). -/
theorem test_v054_rolAcc : ends { start 0x0200 [0x2A] [] with a := 0x80, p := 0x01 }
    0x01 0x00 0x00 0xFF 0x01 0x0201 .running [r 0x0200 0x2A] = true := by decide

/-- V55: ROL A: result 0x80, N (rule R152). -/
theorem test_v055_rolAcc : ends { start 0x0200 [0x2A] [] with a := 0x40 }
    0x80 0x00 0x00 0xFF 0x80 0x0201 .running [r 0x0200 0x2A] = true := by decide

/-- V56: ROR A: bit 0 to C, result zero (rule R153). -/
theorem test_v056_rorAcc : ends { start 0x0200 [0x6A] [] with a := 0x01 }
    0x00 0x00 0x00 0xFF 0x03 0x0201 .running [r 0x0200 0x6A] = true := by decide

/-- V57: ROR A: C in to bit 7 (rule R153). -/
theorem test_v057_rorAcc : ends { start 0x0200 [0x6A] [] with a := 0x00, p := 0x01 }
    0x80 0x00 0x00 0xFF 0x80 0x0201 .running [r 0x0200 0x6A] = true := by decide

/-- V62: INC 0xFF wraps to 0x00, Z; C untouched (rule R155). -/
theorem test_v062_incZp : ends { start 0x0200 [0xE6, 0x10] [(0x0010, 0xFF)] with p := 0x01 }
    0x00 0x00 0x00 0xFF 0x03 0x0202 .running [r 0x0200 0xE6, r 0x0201 0x10, r 0x0010 0xFF, w 0x0010 0x00] = true := by decide

/-- V64: DEC 0x00 wraps to 0xFF, N (rule R156). -/
theorem test_v064_decZp : ends (start 0x0200 [0xC6, 0x10] [(0x0010, 0x00)])
    0x00 0x00 0x00 0xFF 0x80 0x0202 .running [r 0x0200 0xC6, r 0x0201 0x10, r 0x0010 0x00, w 0x0010 0xFF] = true := by decide

/-- V65: DEC to zero (rule R156). -/
theorem test_v065_decAbs : ends (start 0x0200 [0xCE, 0x00, 0x03] [(0x0300, 0x01)])
    0x00 0x00 0x00 0xFF 0x02 0x0203 .running [r 0x0200 0xCE, r 0x0201 0x00, r 0x0202 0x03, r 0x0300 0x01, w 0x0300 0x00] = true := by decide

/-- V66: INX wraps (source T2) (rule R157). -/
theorem test_v066_inx : ends { start 0x0200 [0xE8] [] with x := 0xFF }
    0x00 0x00 0x00 0xFF 0x02 0x0201 .running [r 0x0200 0xE8] = true := by decide

/-- V67: INY to 0x80 (rule R158). -/
theorem test_v067_iny : ends { start 0x0200 [0xC8] [] with y := 0x7F }
    0x00 0x00 0x80 0xFF 0x80 0x0201 .running [r 0x0200 0xC8] = true := by decide

/-- V68: DEX wraps to 0xFF; C untouched (source T2) (rule R159). -/
theorem test_v068_dex : ends { start 0x0200 [0xCA] [] with x := 0x00, p := 0x01 }
    0x00 0xFF 0x00 0xFF 0x81 0x0201 .running [r 0x0200 0xCA] = true := by decide

/-- V69: DEY to zero (rule R160). -/
theorem test_v069_dey : ends { start 0x0200 [0x88] [] with y := 0x01 }
    0x00 0x00 0x00 0xFF 0x02 0x0201 .running [r 0x0200 0x88] = true := by decide

/-- V70: CLC clears bit 0 only (rule R170). -/
theorem test_v070_clc : ends { start 0x0200 [0x18] [] with p := 0xFF }
    0x00 0x00 0x00 0xFF 0xFE 0x0201 .running [r 0x0200 0x18] = true := by decide

/-- V71: SEC (rule R171). -/
theorem test_v071_sec : ends { start 0x0200 [0x38] [] with p := 0x00 }
    0x00 0x00 0x00 0xFF 0x01 0x0201 .running [r 0x0200 0x38] = true := by decide

/-- V72: CLI clears bit 2 only (rule R172). -/
theorem test_v072_cli : ends { start 0x0200 [0x58] [] with p := 0xFF }
    0x00 0x00 0x00 0xFF 0xFB 0x0201 .running [r 0x0200 0x58] = true := by decide

/-- V73: SEI (rule R173). -/
theorem test_v073_sei : ends { start 0x0200 [0x78] [] with p := 0x00 }
    0x00 0x00 0x00 0xFF 0x04 0x0201 .running [r 0x0200 0x78] = true := by decide

/-- V74: CLD clears bit 3 only (rule R174). -/
theorem test_v074_cld : ends { start 0x0200 [0xD8] [] with p := 0xFF }
    0x00 0x00 0x00 0xFF 0xF7 0x0201 .running [r 0x0200 0xD8] = true := by decide

/-- V75: SED (rule R175). -/
theorem test_v075_sed : ends { start 0x0200 [0xF8] [] with p := 0x00 }
    0x00 0x00 0x00 0xFF 0x08 0x0201 .running [r 0x0200 0xF8] = true := by decide

/-- V76: CLV clears bit 6 only (rule R176). -/
theorem test_v076_clv : ends { start 0x0200 [0xB8] [] with p := 0xFF }
    0x00 0x00 0x00 0xFF 0xBF 0x0201 .running [r 0x0200 0xB8] = true := by decide

/-- V77: CLV when already clear (rule R176). -/
theorem test_v077_clv : ends { start 0x0200 [0xB8] [] with p := 0x00 }
    0x00 0x00 0x00 0xFF 0x00 0x0201 .running [r 0x0200 0xB8] = true := by decide

/-- V78: push at the reset value of SP: write 0x0100, SP wraps to 0xFF (rule R182, rule R180). -/
theorem test_v078_pha : ends { start 0x0200 [0x48] [] with a := 0x42, sp := 0x00 }
    0x42 0x00 0x00 0xFF 0x00 0x0201 .running [r 0x0200 0x48, w 0x0100 0x42] = true := by decide

/-- V80: pull at SP = 0xFF: SP wraps to 0x00, reads 0x0100; N set (rule R183, rule R181). -/
theorem test_v080_pla : ends { start 0x0200 [0x68] [(0x0100, 0x80)] with sp := 0xFF }
    0x80 0x00 0x00 0x00 0x80 0x0201 .running [r 0x0200 0x68, r 0x0100 0x80] = true := by decide

/-- V82: PHP pushes P OR 0x30; P itself unchanged (rule R184). -/
theorem test_v082_php : ends { start 0x0200 [0x08] [] with p := 0x00 }
    0x00 0x00 0x00 0xFE 0x00 0x0201 .running [r 0x0200 0x08, w 0x01FF 0x30] = true := by decide

/-- V83: PHP with N V Z C (rule R184). -/
theorem test_v083_php : ends { start 0x0200 [0x08] [] with p := 0xC3 }
    0x00 0x00 0x00 0xFE 0xC3 0x0201 .running [r 0x0200 0x08, w 0x01FF 0xF3] = true := by decide

/-- V84: PLP verbatim: bits 4 and 5 taken from the byte (here 0) (rule R185). -/
theorem test_v084_plp : ends { start 0x0200 [0x28] [(0x01FF, 0xCF)] with sp := 0xFE }
    0x00 0x00 0x00 0xFF 0xCF 0x0201 .running [r 0x0200 0x28, r 0x01FF 0xCF] = true := by decide

/-- V85: PLP of 0xFF sets all eight bits (rule R185). -/
theorem test_v085_plp : ends { start 0x0200 [0x28] [(0x01FF, 0xFF)] with sp := 0xFE, p := 0x00 }
    0x00 0x00 0x00 0xFF 0xFF 0x0201 .running [r 0x0200 0x28, r 0x01FF 0xFF] = true := by decide

/-- V87: TXS: no flag changes although X = 0xFF (rule R186). -/
theorem test_v087_txs : ends { start 0x0200 [0x9A] [] with x := 0xFF, sp := 0x00, p := 0x00 }
    0x00 0xFF 0x00 0xFF 0x00 0x0201 .running [r 0x0200 0x9A] = true := by decide

/-- V88: TXS of zero does not set Z (rule R186). -/
theorem test_v088_txs : ends { start 0x0200 [0x9A] [] with x := 0x00, sp := 0x80, p := 0x80 }
    0x00 0x00 0x00 0x00 0x80 0x0201 .running [r 0x0200 0x9A] = true := by decide

/-- V89: TSX at the reset SP: X = 0, Z (rule R187). -/
theorem test_v089_tsx : ends { start 0x0200 [0xBA] [] with x := 0x55, sp := 0x00 }
    0x00 0x00 0x00 0x00 0x02 0x0201 .running [r 0x0200 0xBA] = true := by decide

/-- V90: TSX sets N (rule R187). -/
theorem test_v090_tsx : ends { start 0x0200 [0xBA] [] with sp := 0xFD }
    0x00 0xFD 0x00 0xFD 0x80 0x0201 .running [r 0x0200 0xBA] = true := by decide

/-- V92: JSR at the reset SP: high byte at 0x0100, low byte at 0x01FF (rule R188). -/
theorem test_v092_jsr : ends { start 0x0200 [0x20, 0x34, 0x12] [] with sp := 0x00 }
    0x00 0x00 0x00 0xFE 0x00 0x1234 .running [r 0x0200 0x20, r 0x0201 0x34, r 0x0202 0x12, w 0x0100 0x02, w 0x01FF 0x02] = true := by decide

/-- V94: RTS: low byte pulled first; PC = 0x0202 + 1 (rule R189). -/
theorem test_v094_rts : ends { start 0x0200 [0x60] [(0x01FE, 0x02), (0x01FF, 0x02)] with sp := 0xFD }
    0x00 0x00 0x00 0xFF 0x00 0x0203 .running [r 0x0200 0x60, r 0x01FE 0x02, r 0x01FF 0x02] = true := by decide

/-- V95: RTS: + 1 wraps 0xFFFF to 0x0000 (rule R189). -/
theorem test_v095_rts : ends { start 0x0200 [0x60] [(0x01FE, 0xFF), (0x01FF, 0xFF)] with sp := 0xFD }
    0x00 0x00 0x00 0xFF 0x00 0x0000 .running [r 0x0200 0x60, r 0x01FE 0xFF, r 0x01FF 0xFF] = true := by decide

/-- V97: RTI: P verbatim, PC without + 1 (rule R190). -/
theorem test_v097_rti : ends { start 0x0200 [0x40] [(0x01FD, 0x81), (0x01FE, 0x34), (0x01FF, 0x12)] with sp := 0xFC }
    0x00 0x00 0x00 0xFF 0x81 0x1234 .running [r 0x0200 0x40, r 0x01FD 0x81, r 0x01FE 0x34, r 0x01FF 0x12] = true := by decide

/-- V99: load of zero: Z set, N cleared, C and V untouched (source T1) (rule R200). -/
theorem test_v099_ldaImm : ends { start 0x0200 [0xA9, 0x00] [] with a := 0x55, p := 0xC1 }
    0x00 0x00 0x00 0xFF 0x43 0x0202 .running [r 0x0200 0xA9, r 0x0201 0x00] = true := by decide

/-- V100: LDX sets N (rule R201). -/
theorem test_v100_ldxImm : ends (start 0x0200 [0xA2, 0xFF] [])
    0x00 0xFF 0x00 0xFF 0x80 0x0202 .running [r 0x0200 0xA2, r 0x0201 0xFF] = true := by decide

/-- V101: LDY clears both Z and N (rule R202). -/
theorem test_v101_ldyImm : ends { start 0x0200 [0xA0, 0x7F] [] with p := 0x82 }
    0x00 0x00 0x7F 0xFF 0x00 0x0202 .running [r 0x0200 0xA0, r 0x0201 0x7F] = true := by decide

/-- V102: LDX absolute,Y (rule R201). -/
theorem test_v102_ldxAby : ends { start 0x0200 [0xBE, 0x00, 0x03] [(0x0305, 0x44)] with y := 0x05 }
    0x00 0x44 0x05 0xFF 0x00 0x0203 .running [r 0x0200 0xBE, r 0x0201 0x00, r 0x0202 0x03, r 0x0305 0x44] = true := by decide

/-- V103: LDY zero page,X with wrap (rule R202). -/
theorem test_v103_ldyZpx : ends { start 0x0200 [0xB4, 0x80] [(0x0010, 0x21)] with x := 0x90 }
    0x00 0x90 0x21 0xFF 0x00 0x0202 .running [r 0x0200 0xB4, r 0x0201 0x80, r 0x0010 0x21] = true := by decide

/-- V104: STA of zero changes no flag; no read of the target (rule R203). -/
theorem test_v104_staAbs : ends { start 0x0200 [0x8D, 0x00, 0x03] [] with a := 0x00, p := 0x80 }
    0x00 0x00 0x00 0xFF 0x80 0x0203 .running [r 0x0200 0x8D, r 0x0201 0x00, r 0x0202 0x03, w 0x0300 0x00] = true := by decide

/-- V105: STA absolute,Y across a page (rule R203). -/
theorem test_v105_staAby : ends { start 0x0200 [0x99, 0xF0, 0x02] [] with a := 0x42, y := 0x20 }
    0x42 0x00 0x20 0xFF 0x00 0x0203 .running [r 0x0200 0x99, r 0x0201 0xF0, r 0x0202 0x02, w 0x0310 0x42] = true := by decide

/-- V107: STX zero page,Y with wrap to 0x0010 (rule R204). -/
theorem test_v107_stxZpy : ends { start 0x0200 [0x96, 0xF0] [] with x := 0x07, y := 0x20 }
    0x00 0x07 0x20 0xFF 0x00 0x0202 .running [r 0x0200 0x96, r 0x0201 0xF0, w 0x0010 0x07] = true := by decide

/-- V108: STY zero page,X (rule R205). -/
theorem test_v108_styZpx : ends { start 0x0200 [0x94, 0x10] [] with x := 0x01, y := 0x09 }
    0x00 0x01 0x09 0xFF 0x00 0x0202 .running [r 0x0200 0x94, r 0x0201 0x10, w 0x0011 0x09] = true := by decide

/-- V109: TAX sets N (rule R206). -/
theorem test_v109_tax : ends { start 0x0200 [0xAA] [] with a := 0xFF }
    0xFF 0xFF 0x00 0xFF 0x80 0x0201 .running [r 0x0200 0xAA] = true := by decide

/-- V110: TAY of zero sets Z, clears N (rule R207). -/
theorem test_v110_tay : ends { start 0x0200 [0xA8] [] with a := 0x00, y := 0x33, p := 0x80 }
    0x00 0x00 0x00 0xFF 0x02 0x0201 .running [r 0x0200 0xA8] = true := by decide

/-- V111: TXA clears N (rule R208). -/
theorem test_v111_txa : ends { start 0x0200 [0x8A] [] with a := 0xFF, x := 0x10, p := 0x80 }
    0x10 0x10 0x00 0xFF 0x00 0x0201 .running [r 0x0200 0x8A] = true := by decide

/-- V112: TYA sets N (rule R209). -/
theorem test_v112_tya : ends { start 0x0200 [0x98] [] with y := 0x80 }
    0x80 0x00 0x80 0xFF 0x80 0x0201 .running [r 0x0200 0x98] = true := by decide

/-- V113: JMP absolute; target not read (rule R220). -/
theorem test_v113_jmpAbs : ends (start 0x0200 [0x4C, 0x34, 0x12] [])
    0x00 0x00 0x00 0xFF 0x00 0x1234 .running [r 0x0200 0x4C, r 0x0201 0x34, r 0x0202 0x12] = true := by decide

/-- V114: JMP to itself (rule R220). -/
theorem test_v114_jmpAbs : ends (start 0x0200 [0x4C, 0x00, 0x02] [])
    0x00 0x00 0x00 0xFF 0x00 0x0200 .running [r 0x0200 0x4C, r 0x0201 0x00, r 0x0202 0x02] = true := by decide

/-- V115: BPL taken (N = 0) (rule R222, rule R116). -/
theorem test_v115_bpl : ends { start 0x0200 [0x10, 0x05] [] with p := 0x00 }
    0x00 0x00 0x00 0xFF 0x00 0x0207 .running [r 0x0200 0x10, r 0x0201 0x05] = true := by decide

/-- V117: BMI taken, backward by 5 from 0x0202 (rule R223, rule R116). -/
theorem test_v117_bmi : ends { start 0x0200 [0x30, 0xFB] [] with p := 0x80 }
    0x00 0x00 0x00 0xFF 0x80 0x01FD .running [r 0x0200 0x30, r 0x0201 0xFB] = true := by decide

/-- V118: BMI not taken; offset still fetched (rule R223, rule R116). -/
theorem test_v118_bmi : ends { start 0x0200 [0x30, 0xFB] [] with p := 0x00 }
    0x00 0x00 0x00 0xFF 0x00 0x0202 .running [r 0x0200 0x30, r 0x0201 0xFB] = true := by decide

/-- V119: BVC taken (rule R224, rule R116). -/
theorem test_v119_bvc : ends { start 0x0200 [0x50, 0x02] [] with p := 0x00 }
    0x00 0x00 0x00 0xFF 0x00 0x0204 .running [r 0x0200 0x50, r 0x0201 0x02] = true := by decide

/-- V120: BVC not taken (rule R224, rule R116). -/
theorem test_v120_bvc : ends { start 0x0200 [0x50, 0x02] [] with p := 0x40 }
    0x00 0x00 0x00 0xFF 0x40 0x0202 .running [r 0x0200 0x50, r 0x0201 0x02] = true := by decide

/-- V121: BVS taken, farthest forward: 0x0202 + 127 (rule R225, rule R116). -/
theorem test_v121_bvs : ends { start 0x0200 [0x70, 0x7F] [] with p := 0x40 }
    0x00 0x00 0x00 0xFF 0x40 0x0281 .running [r 0x0200 0x70, r 0x0201 0x7F] = true := by decide

/-- V122: BVS not taken (rule R225, rule R116). -/
theorem test_v122_bvs : ends { start 0x0200 [0x70, 0x7F] [] with p := 0x00 }
    0x00 0x00 0x00 0xFF 0x00 0x0202 .running [r 0x0200 0x70, r 0x0201 0x7F] = true := by decide

/-- V123: BCC taken, farthest backward: 0x0202 - 128 (rule R226, rule R116). -/
theorem test_v123_bcc : ends { start 0x0200 [0x90, 0x80] [] with p := 0x00 }
    0x00 0x00 0x00 0xFF 0x00 0x0182 .running [r 0x0200 0x90, r 0x0201 0x80] = true := by decide

/-- V124: BCC not taken (rule R226, rule R116). -/
theorem test_v124_bcc : ends { start 0x0200 [0x90, 0x80] [] with p := 0x01 }
    0x00 0x00 0x00 0xFF 0x01 0x0202 .running [r 0x0200 0x90, r 0x0201 0x80] = true := by decide

/-- V125: BCS taken (rule R227, rule R116). -/
theorem test_v125_bcs : ends { start 0x0200 [0xB0, 0x10] [] with p := 0x01 }
    0x00 0x00 0x00 0xFF 0x01 0x0212 .running [r 0x0200 0xB0, r 0x0201 0x10] = true := by decide

/-- V126: BCS not taken (rule R227, rule R116). -/
theorem test_v126_bcs : ends { start 0x0200 [0xB0, 0x10] [] with p := 0x00 }
    0x00 0x00 0x00 0xFF 0x00 0x0202 .running [r 0x0200 0xB0, r 0x0201 0x10] = true := by decide

/-- V127: BNE taken to itself (offset 0xFE) (rule R228, rule R116). -/
theorem test_v127_bne : ends { start 0x0200 [0xD0, 0xFE] [] with p := 0x00 }
    0x00 0x00 0x00 0xFF 0x00 0x0200 .running [r 0x0200 0xD0, r 0x0201 0xFE] = true := by decide

/-- V128: BNE not taken (rule R228, rule R116). -/
theorem test_v128_bne : ends { start 0x0200 [0xD0, 0xFE] [] with p := 0x02 }
    0x00 0x00 0x00 0xFF 0x02 0x0202 .running [r 0x0200 0xD0, r 0x0201 0xFE] = true := by decide

/-- V129: BEQ taken with offset 0: same PC as not taken (rule R229, rule R116). -/
theorem test_v129_beq : ends { start 0x0200 [0xF0, 0x00] [] with p := 0x02 }
    0x00 0x00 0x00 0xFF 0x02 0x0202 .running [r 0x0200 0xF0, r 0x0201 0x00] = true := by decide

/-- V130: BEQ not taken (rule R229, rule R116). -/
theorem test_v130_beq : ends { start 0x0200 [0xF0, 0x10] [] with p := 0x00 }
    0x00 0x00 0x00 0xFF 0x00 0x0202 .running [r 0x0200 0xF0, r 0x0201 0x10] = true := by decide

/-- V133: NOP: only PC changes (rule R230). -/
theorem test_v133_nop : ends { start 0x0200 [0xEA] [] with a := 0x12, p := 0xC3 }
    0x12 0x00 0x00 0xFF 0xC3 0x0201 .running [r 0x0200 0xEA] = true := by decide

/-- V134: HLT: Halted, PC = at + 1, nothing pushed, I and B untouched (rule R231). -/
theorem test_v134_hlt : ends { start 0x0200 [0x00] [] with a := 0x12, p := 0xC3 }
    0x12 0x00 0x00 0xFF 0xC3 0x0201 .halted [r 0x0200 0x00] = true := by decide

/-- V135: decode failure: PC register is at + 1, record holds at (rule R241). -/
theorem test_v135_illegal : ends { start 0x0200 [0x02] [] with a := 0x12 }
    0x12 0x00 0x00 0xFF 0x00 0x0201 (.faulted (.decodeFailure 0x02 0x0200)) [r 0x0200 0x02] = true := by decide

/-- V137: 0x80 is not a no-operation and not a branch (rule R241, 30_encoding.md rule R76). -/
theorem test_v137_illegal : ends { start 0x0200 [0x80, 0x10] [] with p := 0x00 }
    0x00 0x00 0x00 0xFF 0x00 0x0201 (.faulted (.decodeFailure 0x80 0x0200)) [r 0x0200 0x80] = true := by decide

/-- V138: ImageOnly refuses every write: PC past the instruction, A kept (rule R242). -/
theorem test_v138_staAbs : ends { start 0x0200 [0x8D, 0x00, 0x03] [] with a := 0x05, bus := Bus.imageOnly 0x0200 3 }
    0x05 0x00 0x00 0xFF 0x00 0x0203 (.faulted (.addressingFailure 0x0300 .write 0x0200)) [r 0x0200 0x8D, r 0x0201 0x00, r 0x0202 0x03] = true := by decide

/-- V139: ImageOnly refuses a read outside the image: A and flags unchanged (rule R242, rule R243). -/
theorem test_v139_ldaAbs : ends { start 0x0200 [0xAD, 0x00, 0x03] [] with a := 0x05, p := 0x00, bus := Bus.imageOnly 0x0200 3 }
    0x05 0x00 0x00 0xFF 0x00 0x0203 (.faulted (.addressingFailure 0x0300 .read 0x0200)) [r 0x0200 0xAD, r 0x0201 0x00, r 0x0202 0x03] = true := by decide

/-- V140: operand fetch off the end of the image: refused fetch does not advance PC (it stays 0x0201) (rule R242, 40_execution_and_addressing.md rule R101). -/
theorem test_v140_ldaImm : ends { start 0x0200 [0xA9] [] with bus := Bus.imageOnly 0x0200 1 }
    0x00 0x00 0x00 0xFF 0x00 0x0201 (.faulted (.addressingFailure 0x0201 .read 0x0200)) [r 0x0200 0xA9] = true := by decide

/-- V141: refused push: SP not decremented (rule R180). -/
theorem test_v141_pha : ends { start 0x0200 [0x48] [] with a := 0x42, bus := Bus.imageOnly 0x0200 1 }
    0x42 0x00 0x00 0xFF 0x00 0x0201 (.faulted (.addressingFailure 0x01FF .write 0x0200)) [r 0x0200 0x48] = true := by decide

/-- V142: refused pull: SP already incremented to 0x11 (rule R181, rule R243). -/
theorem test_v142_pla : ends { start 0x0200 [0x68] [] with sp := 0x10, bus := Bus.imageOnly 0x0200 1 }
    0x00 0x00 0x00 0x11 0x00 0x0201 (.faulted (.addressingFailure 0x0111 .read 0x0200)) [r 0x0200 0x68] = true := by decide

/-- V143: second JSR push refused: first push done, SP decremented once, PC not yet changed to the target (rule R188, rule R243). -/
theorem test_v143_jsr : ends { start 0x0200 [0x20, 0x34, 0x12] [] with bus := refusing 0x01FE true false }
    0x00 0x00 0x00 0xFE 0x00 0x0203 (.faulted (.addressingFailure 0x01FE .write 0x0200)) [r 0x0200 0x20, r 0x0201 0x34, r 0x0202 0x12, w 0x01FF 0x02] = true := by decide

/-- V144: read-modify-write with refused write: memory and flags unchanged (Z not set) (42_shift_rotate_incdec.md rule R154). -/
theorem test_v144_incZp : ends { start 0x0200 [0xE6, 0x10] [(0x0010, 0xFF)] with p := 0x00, bus := refusing 0x0010 true false }
    0x00 0x00 0x00 0xFF 0x00 0x0202 (.faulted (.addressingFailure 0x0010 .write 0x0200)) [r 0x0200 0xE6, r 0x0201 0x10, r 0x0010 0xFF] = true := by decide

/-- V145: refused pointer high-byte read: the low byte was read, nothing loaded (rule R247). -/
theorem test_v145_ldaIzy : ends { start 0x0200 [0xB1, 0x20] [(0x0020, 0x00), (0x0021, 0x03)] with y := 0x01, bus := refusing 0x0021 false true }
    0x00 0x00 0x01 0xFF 0x00 0x0202 (.faulted (.addressingFailure 0x0021 .read 0x0200)) [r 0x0200 0xB1, r 0x0201 0x20, r 0x0020 0x00] = true := by decide

/-- V146: branch not taken still fetches its offset, so it faults (46_control_flow.md rule R221). -/
theorem test_v146_bpl : ends { start 0x0200 [0x10, 0x05] [] with p := 0x80, bus := refusing 0x0201 false true }
    0x00 0x00 0x00 0xFF 0x80 0x0201 (.faulted (.addressingFailure 0x0201 .read 0x0200)) [r 0x0200 0x10] = true := by decide

-- ==== buses with a state of their own ====

/-- Plain memory but for device number 7 at one address. -/
def withDevice (a : Nat) : Bus :=
  ⟨[⟨.read, a, 1, .device 7, none, none, none⟩, ⟨.write, a, 1, .device 7, none, none, none⟩] ++ Bus.flatRam64K.cases⟩

/-- A read of a device's address gives whatever the device answers after what the bus has seen, and faults when it
refuses (20 R41, R47). -/
theorem test_device_read :
    (match step { start 0x0200 [0xAD, 0x02, 0x20] [] with bus := withDevice 0x2002 } with
      | .next t => (t.a, t.run == .running)
      | _ => (0x00, false)) =
    (match Config.deviceReply 7 [r 0x0202 0x20, r 0x0201 0x02, r 0x0200 0xAD] (.read 0x2002) with
      | some v => (v, true)
      | none => (0x00, false)) := by
  have h : step { start 0x0200 [0xAD, 0x02, 0x20] [] with bus := withDevice 0x2002 } =
      exec (.ldaAbs 0x2002) ({ start 0x0200 [0xAD, 0x02, 0x20] [] with bus := withDevice 0x2002 }.afterFetch 3) := rfl
  rw [h]
  simp only [exec, execLdaAbs, readClass, loadOperand, resolve, Laws.bind_done, memRead]
  have hs : ({ start 0x0200 [0xAD, 0x02, 0x20] [] with bus := withDevice 0x2002 }.afterFetch 3).services (.read 0x2002) =
    (Config.deviceReply 7 [r 0x0202 0x20, r 0x0201 0x02, r 0x0200 0xAD] (.read 0x2002)).isSome := rfl
  have hb : ({ start 0x0200 [0xAD, 0x02, 0x20] [] with bus := withDevice 0x2002 }.afterFetch 3).busByte 0x2002 =
    (Config.deviceReply 7 [r 0x0202 0x20, r 0x0201 0x02, r 0x0200 0xAD] (.read 0x2002)).getD 0x00 := rfl
  rw [hs, hb]
  rcases Config.deviceReply 7 [r 0x0202 0x20, r 0x0201 0x02, r 0x0200 0xAD] (.read 0x2002) with _ | v <;> rfl

/-- A bus with a latch: a write of 0x2000 sets it, but of the byte 0xFF is refused; a read of 0x2001 is refused until the
latch is set, and then gives 0x5A. -/
def latched : Bus :=
  ⟨[⟨.write, 0x2000, 1, .refuse, none, some 0xFF, none⟩, ⟨.write, 0x2000, 1, .answer 0x00, none, none, some 1⟩,
    ⟨.read, 0x2001, 1, .answer 0x5A, some 1, none, none⟩, ⟨.read, 0x2001, 1, .refuse, none, none, none⟩]
      ++ Bus.flatRam64K.cases⟩

/-- A refusal that depends on the byte written, and a serviced write that reaches no cell (20 R41). -/
theorem test_bus_refuses_byte :
    (match step { start 0x0200 [0x8D, 0x00, 0x20] [] with a := 0xFF, bus := latched } with
      | .next t => t.run == .faulted (.addressingFailure 0x2000 .write 0x0200)
      | _ => false) = true ∧
    (match step { start 0x0200 [0x8D, 0x00, 0x20] [] with a := 0x01, bus := latched } with
      | .next t => t.run == .running && t.mem.read 0x2000 == 0x00 && t.services (.read 0x2001)
      | _ => false) = true := by decide

/-- A refusal that depends on the bus's own state (20 R41): the same read before and after the latch is set. -/
theorem test_bus_refuses_by_state :
    (match step { start 0x0200 [0xAD, 0x01, 0x20] [] with bus := latched } with
      | .next t => t.run == .faulted (.addressingFailure 0x2001 .read 0x0200)
      | _ => false) = true ∧
    (match step { start 0x0200 [0xAD, 0x01, 0x20] [] with bus := latched, trace := [w 0x2000 0x01] } with
      | .next t => t.run == .running && t.a == 0x5A
      | _ => false) = true := by decide

-- ==== launch and run ====

/-- S1 of 95 section 1: the image A9 05 00 ends Halted with A = 5, Z and N clear, PC = 3. -/
theorem test_scenario_s1 :
    ((launch { image := [0xA9, 0x05, 0x00] }).map fun s =>
      let t := s.runFor 2
      (t.a, t.p, t.pc, t.succeeded)) = some (0x05, 0x00, 0x0003, true) := by decide

/-- S3 of 95 section 1: Y preset to 0x10, CPY #$10. -/
theorem test_scenario_s3 :
    ((launch { image := [0xC0, 0x10, 0x00], presets := [.y 0x10] }).map fun s => ((s.runFor 2).p, (s.runFor 2).y))
      = some (0x03, 0x10) := by decide

/-- An image that would wrap is not launched (70 R274). -/
theorem test_launch_refuses_wrap : launch { image := [0xEA, 0xEA], imageBase := 0xFFFF } = none := by decide

/-- The placed word runs next, even from a Halted state on a platform that refuses the address (log entry 5). -/
theorem test_placed_word :
    (match step ({ State.reset with run := .halted, bus := ⟨[]⟩ }.withFetchWord 16 0x05A9) with
      | .next t => (t.a, t.pc) == (0x05, 0x0002)
      | _ => false) = true := by decide

-- ==== states that meet the statements' hypotheses ====

/-- Registers at their bounds, PC past an instruction at the top of the address space, pointers that wrap in page 0, and
a bus that refuses an address none of the witnesses' accesses names. -/
def edge : State :=
  { start 0x0001 [] [(0x0000, 0xFF), (0x00FE, 0x34), (0x00FF, 0xFF), (0x3000, 0x80), (0x30FF, 0x40)] with
    x := 0xFF, y := 0x01, sp := 0x00, p := 0xFF, bus := refusing 0x8000 false false }

/-- A three-byte store whose bytes wrap around the top of the address space. -/
def wrapping : State :=
  { State.reset with pc := 0xFFFE, mem := Memory.load 0xFFFE [0x8D, 0x10] [(0x0000, 0x02)] }

/-- A state whose platform is an image of these bytes at 0x0200, PC at its start. -/
def imaged (bytes : List Byte) : State := { start 0x0200 bytes [] with bus := Bus.imageOnly 0x0200 bytes.length }

/-- The bus services every read of these operands. -/
def readsServed (s : State) (l : List Src) : Bool := l.all fun src => s.servicesReads (src.reads s)

/-- The bus services the pointer reads, and then the write of this byte, of these modes. -/
def writesServed (s : State) (v : Byte) (l : List MemMode) : Bool :=
  l.all fun m => s.servicesReads (m.pointerReads s) && (s.recordReads (m.pointerReads s)).services (.write (m.ea s) v)

/-- The bus services the reads, and then the write of what each operation makes of the byte read, of these modes. -/
def modifiesServed (s : State) (ops : List (Byte → Byte → Byte)) (l : List MemMode) : Bool :=
  ops.all fun new => l.all fun m =>
    s.servicesReads (m.pointerReads s ++ [m.ea s]) && (s.recordReads (m.pointerReads s ++ [m.ea s])).services
      (.write (m.ea s) (new ((s.recordReads (m.pointerReads s)).busByte (m.ea s)) s.p))

theorem witness_DecodeOfEncode :
    wellFormed (.illegal 0x02) = true ∧ wellFormed (.illegal 0xFF) = true ∧ wellFormed (.jmpInd 0xFFFF) = true := by decide

theorem witness_EncodeOfDecode :
    decode [0x91, 0xFF, 0x00] = .ok (.staIzy 0xFF, [0x00]) ∧ decode [0x03] = .ok (.illegal 0x03, []) := ⟨rfl, rfl⟩

theorem witness_NoEntryExactlyUndocumented :
    lookup 0x02 = none ∧ isUndocumented 0x02 = true ∧ isUndocumented 0xFF = true := ⟨rfl, by decide, by decide⟩

theorem witness_LengthFixedByOpcode :
    (wellFormed (.adcAbs 0x0000) = true ∧ wellFormed (.adcAbs 0xFFFF) = true ∧
      opcodeOf (.adcAbs 0x0000) = opcodeOf (.adcAbs 0xFFFF)) ∧
    modeOf (.adcAbs 0xFFFF) = some .abs ∧ modeOf (.illegal 0x02) = none := by decide

/-- The instruction's bytes at 0xFFFE, 0xFFFF and 0x0000. -/
theorem witness_StepRunsDecoded :
    wrapping.run = .running ∧ decode (wrapping.stream 3) = .ok (.staAbs 0x0210, []) ∧
    wrapping.servicesFetch (lengthOf (.staAbs 0x0210)) = true := ⟨rfl, rfl, by decide⟩

/-- The opcode's byte refused, and the last byte refused after the address wrapped. -/
theorem witness_StepFaultsAtRefusedFetch :
    (∃ s : State, s.run = .running ∧ decode (s.stream 3) = .ok (.hlt, [0x10, 0x02]) ∧
      0 < lengthOf .hlt ∧ s.servicesFetch 0 = true ∧
      (s.afterFetch 0).services (.read (s.pc + BitVec.ofNat 16 0)) = false) ∧
    (∃ s : State, s.run = .running ∧ decode (s.stream 3) = .ok (.staAbs 0x0010, []) ∧
      2 < lengthOf (.staAbs 0x0010) ∧ s.servicesFetch 2 = true ∧
      (s.afterFetch 2).services (.read (s.pc + BitVec.ofNat 16 2)) = false) :=
  ⟨⟨{ wrapping with bus := refusing 0xFFFE false true }, rfl, rfl, by decide, by decide, by decide⟩,
    ⟨{ wrapping with bus := refusing 0x0000 false true }, rfl, rfl, by decide, by decide, by decide⟩⟩

theorem witness_StepExactlyWhenRunning :
    State.reset.run = .running ∧ (State.reset.setRun .halted).run = .halted ∧
    (State.reset.raise (.decodeFailure 0x02 0x0000)).run = .faulted (.decodeFailure 0x02 0x0000) := by decide

theorem wrapping_inv : wrapping.Inv := ⟨by decide, fun _ h => (nomatch h), rfl⟩

theorem imaged_inv (b : Byte) (h : (imaged [b]).mem.wf = true) : (imaged [b]).Inv := ⟨h, fun _ h => (nomatch h), rfl⟩

/-- A step that stores, one that halts, one that faults on a byte and one that faults on an access. -/
theorem witness_StepKeepsInvariant :
    wrapping.Inv ∧ (∃ t, step wrapping = .next t ∧ t.run = .running) ∧
    State.reset.Inv ∧ (∃ t, step State.reset = .next t ∧ t.run = .halted) ∧
    (imaged [0x02]).Inv ∧
    (∃ t, step (imaged [0x02]) = .next t ∧ t.run = .faulted (.decodeFailure 0x02 0x0200)) ∧
    (imaged [0x48]).Inv ∧
    (∃ t, step (imaged [0x48]) = .next t ∧ t.run = .faulted (.addressingFailure 0x01FF .write 0x0200)) :=
  ⟨wrapping_inv, ⟨_, rfl, rfl⟩, ⟨rfl, fun _ h => (nomatch h), rfl⟩, ⟨_, rfl, rfl⟩, imaged_inv _ (by decide), ⟨_, rfl, rfl⟩,
    imaged_inv _ (by decide), ⟨_, rfl, rfl⟩⟩

theorem witness_ResetAndLaunchMeetInvariant :
    (∃ s, launch { image := [0xEA], imageBase := 0xFFFF, presets := [.p 0xFF, .flag .d false] } = some s) ∧
    (∃ s, launch { image := [0xEA, 0x00], platform := .imageOnly } = some s) ∧ wrapping.Inv :=
  ⟨⟨_, rfl⟩, ⟨_, rfl⟩, wrapping_inv⟩

theorem witness_HaltedOnlyThroughHlt : ∃ t, step State.reset = .next t ∧ t.run = .halted := ⟨_, rfl, rfl⟩

theorem witness_FaultNamesItsInstruction :
    (∃ t, step (imaged [0x02]) = .next t ∧ t.run = .faulted (.decodeFailure 0x02 0x0200)) ∧
    (∃ t, step (imaged [0xA9]) = .next t ∧ t.run = .faulted (.addressingFailure 0x0201 .read 0x0200)) :=
  ⟨⟨_, rfl, rfl⟩, ⟨_, rfl, rfl⟩⟩

theorem witness_RunStateChanges :
    (∃ t, exec .nop edge = .next t ∧ t.run = edge.run) ∧ (∃ t, exec .hlt edge = .next t ∧ t.run = .halted) ∧
    (∃ t, exec (.illegal 0xFF) edge = .next t ∧ t.run = .faulted (.decodeFailure 0xFF 0x0000)) ∧
    (∃ t, exec (.staAbs 0x8000) edge = .next t ∧ t.run = .faulted (.addressingFailure 0x8000 .write 0xFFFE)) :=
  ⟨⟨_, rfl, rfl⟩, ⟨_, rfl, rfl⟩, ⟨_, rfl, rfl⟩, ⟨_, rfl, rfl⟩⟩

/-- A store with its pointer at 0x00FF and 0x0000, HLT, and a byte with no entry. -/
theorem witness_AccessSequence :
    (let s := { edge with pc := 0x0200, mem := Memory.load 0x0200 [0x91, 0xFF] edge.mem }
     s.run = .running ∧ decode (s.stream 3) = .ok (.staIzy 0xFF, [0x00]) ∧
      s.servicesFetch 2 = true ∧ (s.afterFetch 2).servicesAll (accesses (.staIzy 0xFF) (s.afterFetch 2)) = true ∧
      accesses (.staIzy 0xFF) (s.afterFetch 2) = [.read 0x00FF, .read 0x0000, .write 0x0000 0x00]) ∧
    (decode (State.reset.stream 3) = .ok (.hlt, [0x00, 0x00]) ∧ State.reset.servicesFetch 1 = true ∧
      (State.reset.afterFetch 1).servicesAll (accesses .hlt (State.reset.afterFetch 1)) = true) ∧
    (decode ((imaged [0x02]).stream 3) = .ok (.illegal 0x02, [0x00, 0x00]) ∧ (imaged [0x02]).servicesFetch 1 = true ∧
      ((imaged [0x02]).afterFetch 1).servicesAll (accesses (.illegal 0x02) ((imaged [0x02]).afterFetch 1)) = true) :=
  ⟨⟨rfl, rfl, by decide, by decide, by decide⟩, ⟨rfl, by decide, by decide⟩, rfl, by decide, by decide⟩

/-- The first access refused, and the second. -/
theorem witness_FirstRefusedAccessFaults :
    (accesses (.incAbs 0x8000) edge = [] ++ .read 0x8000 :: [.write 0x8000 0x01] ∧ edge.servicesAll [] = true ∧
      (edge.servicedAll []).services (.read 0x8000) = false) ∧
    (let s := { edge with bus := refusing 0x01FF true false }
     accesses (.jsr 0x1234) s = [.write 0x0100 0x00] ++ .write 0x01FF 0x00 :: [] ∧
      s.servicesAll [.write 0x0100 0x00] = true ∧
      (s.servicedAll [.write 0x0100 0x00]).services (.write 0x01FF 0x00) = false) := by decide

/-- A read, a store, and a push that faults; each register is outside some instruction's row. -/
theorem witness_RegisterFrame :
    (∃ t, exec (.ldaIzy 0xFF) edge = .next t) ∧ (∃ t, exec (.staAbs 0xFFFF) edge = .next t) ∧
    (∃ t, exec .pha { edge with bus := ⟨[]⟩ } = .next t) ∧
    Reg.a ∉ regsOf (.aslAbs 0xFFFF) ∧ Reg.x ∉ regsOf .txs ∧ Reg.y ∉ regsOf .rti ∧ Reg.sp ∉ regsOf .tsx ∧
    Reg.pc ∉ regsOf .hlt := by
  refine ⟨⟨_, rfl⟩, ⟨_, rfl⟩, ⟨_, rfl⟩, ?_⟩
  decide

theorem witness_FlagFrame :
    (∃ t, exec .inx edge = .next t) ∧ Flag.c ∉ flagsOf .inx ∧ Flag.u ∉ flagsOf .php ∧ Flag.b ∉ flagsOf .hlt ∧
    Flag.d ∉ flagsOf (.adcImm 0xFF) ∧ Flag.i ∉ flagsOf (.illegal 0xFF) := by
  refine ⟨⟨_, rfl⟩, ?_⟩
  decide

/-- The addresses beside the stored ones, and the whole of memory for a form that stores nothing. -/
theorem witness_MemoryAndBusFrame :
    (∃ t, exec (.jsr 0x1234) edge = .next t) ∧ storesTo (.jsr 0x1234) edge = [0x0100, 0x01FF] ∧
    (0x0101 : Word) ∉ storesTo (.jsr 0x1234) edge ∧ (∃ t, exec (.staAbs 0xFFFF) edge = .next t) ∧
    (0x0000 : Word) ∉ storesTo (.staAbs 0xFFFF) edge ∧ storesTo (.cmpIzy 0xFF) edge = [] := by
  refine ⟨⟨_, rfl⟩, by decide, by decide, ⟨_, rfl⟩, by decide, by decide⟩

/-- All eight operand forms of ADC, SBC, AND, ORA, EOR, CMP and LDA. -/
def allSrc : List Src :=
  [.imm 0xFF, .mem (.zp 0xFF), .mem (.zpx 0xFF), .mem (.abs 0xFFFF), .mem (.abx 0xFFFF), .mem (.aby 0xFFFF),
    .mem (.izx 0x00), .mem (.izy 0xFF)]

/-- The effective addresses of those forms wrap in page 0 and past 0xFFFF; the IZX pointer is at 0x00FF, 0x0000. -/
theorem witness_LoadsComplete :
    readsServed edge (allSrc ++ [.mem (.zpy 0xFF)]) = true ∧ (MemMode.zpx 0xFF).ea edge = 0x00FE ∧
    (MemMode.aby 0xFFFF).ea edge = 0x0000 ∧ (MemMode.izx 0x00).pointerReads edge = [0x00FF, 0x0000] ∧
    (MemMode.izy 0xFF).ea edge = 0x0000 := by decide

theorem witness_AdcCompletes : readsServed edge allSrc = true := by decide

theorem witness_SbcCompletes : readsServed edge allSrc = true := by decide

theorem witness_LogicCompletes : readsServed edge allSrc = true := by decide

theorem witness_ComparesComplete : readsServed edge allSrc = true := by decide

theorem witness_BitCompletes : readsServed edge [.mem (.zp 0xFF), .mem (.abs 0xFFFF)] = true := by decide

theorem witness_StoresComplete :
    writesServed edge 0xFF [.zp 0xFF, .zpx 0xFF, .zpy 0xFF, .abs 0xFFFF, .abx 0xFFFF, .aby 0xFFFF, .izx 0x00, .izy 0xFF]
      = true := by decide

theorem witness_MemoryShiftsComplete :
    modifiesServed edge [Claims.aslValue, Claims.lsrValue, Claims.rolValue, Claims.rorValue]
      [.zp 0xFF, .zpx 0xFF, .abs 0xFFFF, .abx 0xFFFF] = true := by decide

theorem witness_IncDecMemoryComplete :
    modifiesServed edge [fun old _ => old + 1, fun old _ => old - 1] [.zp 0xFF, .zpx 0xFF, .abs 0xFFFF, .abx 0xFFFF]
      = true := by decide

theorem witness_InxRule : edge.x = 0xFF ∧ Flag.c ≠ .z ∧ Flag.c ≠ .n := by decide

/-- SP at 0x00, where the push wraps, and at 0xFF. -/
theorem witness_PushInstructionsComplete :
    edge.sp = 0x00 ∧ (start 0x0001 [] []).sp = 0xFF ∧
    ∀ s ∈ [edge, start 0x0001 [] []], s.services (.write (0x0100 + zext16 s.sp) s.a) = true ∧
      s.services (.write (0x0100 + zext16 s.sp) (s.p ||| 0x30)) = true := by decide

/-- SP at 0xFF, where the pull wraps, and at 0x00. -/
theorem witness_PullInstructionsComplete :
    edge.sp = 0x00 ∧ (start 0x0001 [] []).sp = 0xFF ∧
    ∀ s ∈ [edge, start 0x0001 [] []], s.services (.read (0x0100 + zext16 (s.sp + 1))) = true := by decide

/-- SP at 0x00: the two pushes wrap between them. -/
theorem witness_JsrCompletes :
    edge.sp = 0x00 ∧ edge.servicesAll [.write (0x0100 + zext16 edge.sp) (hi8 (edge.pc - 1)),
      .write (0x0100 + zext16 (edge.sp - 1)) (lo8 (edge.pc - 1))] = true := by decide

/-- SP at 0xFD: RTI's three pulls wrap before the last, RTS's at 0xFE before its last. -/
theorem witness_ReturnsComplete :
    (let s := { edge with sp := 0xFD }
     s.servicesReads [0x0100 + zext16 (s.sp + 1), 0x0100 + zext16 (s.sp + 2), 0x0100 + zext16 (s.sp + 3)] = true ∧
      s.sp + 3 = 0x00) ∧
    (let s := { edge with sp := 0xFE }
     s.servicesReads [0x0100 + zext16 (s.sp + 1), 0x0100 + zext16 (s.sp + 2)] = true) := by decide

/-- A pointer whose low byte is the last of its page. -/
theorem witness_JumpsComplete :
    edge.servicesReads [0x30FF, wordOf (hi8 0x30FF) (lo8 0x30FF + 1)] = true ∧
    wordOf (hi8 0x30FF) (lo8 0x30FF + 1) = 0x3000 := by decide

/-- Each branch's condition holds in one of two states. -/
theorem witness_BranchesComplete :
    (∀ f ∈ [Flag.n, Flag.v, Flag.c, Flag.z], getFlag edge.p f = true) ∧
    (∀ f ∈ [Flag.n, Flag.v, Flag.c, Flag.z], getFlag State.reset.p f = false) := by decide

theorem witness_FlagInstructionsComplete : Flag.c ≠ .v ∧ Flag.i ≠ .d ∧ Flag.b ≠ .u := by decide

theorem witness_SetZnRule : Flag.c ≠ .z ∧ Flag.c ≠ .n ∧ Flag.u ≠ .z ∧ Flag.u ≠ .n := by decide

theorem witness_CompareRule : Flag.v ≠ .c ∧ Flag.v ≠ .z ∧ Flag.v ≠ .n ∧ Flag.u ≠ .c ∧ Flag.u ≠ .z ∧ Flag.u ≠ .n := by
  decide

theorem witness_SbcUndoesAdc : ∃ t, exec (.adcImm 0xFF) edge = .next t ∧ getFlag edge.p .c = true := ⟨_, rfl, by decide⟩

theorem witness_InertFlags :
    (∀ f ∈ [Flag.i, Flag.d, Flag.b, Flag.u], f ∉ flagsOf (.adcIzy 0xFF) ∧ f ∉ flagsOf .pla ∧ f ∉ flagsOf .hlt) ∧
    Flag.i ∈ [Flag.i, Flag.d, Flag.b, Flag.u] ∧ Flag.i ∉ flagsOf .cld ∧ mnemonicOf .cld ≠ some .php := by decide

theorem flat_plain (a : Word) : Bus.flatRam64K.plainAt a := fun seen q _ => Laws.reply_flatRam64K seen q

/-- Two different states that are equal but for the accesses noted. -/
theorem witness_TraceInert : State.reset.bus.stateless ∧
    State.reset.unseen = { State.reset with trace := [r 0x0000 0xFF] }.unseen ∧
    State.reset ≠ { State.reset with trace := [r 0x0000 0xFF] } := by
  refine ⟨fun seen q => ?_, rfl, by decide⟩
  simp [State.reset, Laws.reply_flatRam64K]

/-- IZX and IZY pointers that wrap in page 0, and an IND pointer that wraps in its page. -/
theorem witness_PointerArithmetic :
    ((0x00FF : Word).toNat = ((0x00 : Byte).toNat + edge.x.toNat) % 256 ∧
      (0x0000 : Word).toNat = ((0x00 : Byte).toNat + edge.x.toNat + 1) % 256 ∧
      edge.servicesReads [0x00FF, 0x0000] = true) ∧
    ((0x00FF : Word).toNat = (0xFF : Byte).toNat ∧ (0x0000 : Word).toNat = ((0xFF : Byte).toNat + 1) % 256) ∧
    ((0x3000 : Word).toNat = (0x30FF : Word).toNat / 256 * 256 + ((0x30FF : Word).toNat + 1) % 256 ∧
      edge.servicesReads [0x30FF, 0x3000] = true) := by decide

/-- The write serviced and refused, SP at 0x00 and at 0xFF. -/
theorem witness_PushRule :
    (edge.sp = 0x00 ∧ edge.services (.write (0x0100 + zext16 edge.sp) 0x42) = true) ∧
    (let s := { edge with bus := ⟨[]⟩ }; s.services (.write (0x0100 + zext16 s.sp) 0x42) = false) ∧
    ((start 0x0001 [] []).sp = 0xFF ∧ (start 0x0001 [] []).bus.plainAt 0x01FF) ∧
    State.reset.sp = 0x00 ∧ State.reset.bus.plainAt 0x0100 :=
  ⟨by decide, by decide, ⟨rfl, flat_plain _⟩, rfl, flat_plain _⟩

/-- The read serviced and refused, SP at 0xFF, where it wraps. -/
theorem witness_PullRule :
    (start 0x0001 [] []).sp + 1 = 0x00 ∧
    (start 0x0001 [] []).services (.read (0x0100 + zext16 ((start 0x0001 [] []).sp + 1))) = true ∧
    (imaged [0x68]).services (.read (0x0100 + zext16 ((imaged [0x68]).sp + 1))) = false := by decide

theorem witness_StackStaysInPageOne :
    mnemonicOf .rti ∈ [some .pha, some .php, some .pla, some .plp, some .jsr, some .rts, some .rti] ∧
    BusRequest.read 0x0100 ∈ accesses .rti (start 0x0001 [] []) ∧
    BusRequest.write 0x01FF 0x00 ∈ accesses (.jsr 0x0000) edge := by decide

/-- SP at 0x00, where push and pull wrap. -/
theorem witness_PushThenPull :
    State.reset.bus.plainAt (stackAddr State.reset.sp) ∧ (0x01FF : Word) ≠ stackAddr State.reset.sp :=
  ⟨flat_plain _, by decide⟩

theorem witness_JsrThenRtsReturns :
    State.reset.bus.plainAt (stackAddr State.reset.sp) ∧ State.reset.bus.plainAt (stackAddr (State.reset.sp - 1)) :=
  ⟨flat_plain _, flat_plain _⟩

theorem witness_PhpThenPlpSetsBits : State.reset.bus.plainAt (stackAddr State.reset.sp) := flat_plain _

theorem witness_StoreThenLoad : State.reset.bus.plainAt 0xFFFF := flat_plain _

/-- An image that ends at the last address, on each platform, and one that would wrap. -/
theorem witness_LaunchPlacesImage :
    (∃ s, launch { image := [0xEA], imageBase := 0xFFFF } = some s) ∧
    (∃ s, launch { image := [0xEA], imageBase := 0xFFFF, platform := .imageOnly } = some s) ∧
    launch { image := [0xEA, 0xEA], imageBase := 0xFFFF } = none ∧
    ([0xEA] : List Byte)[0]? = some 0xEA ∧ (0xFFFE : Word).toNat < (0xFFFF : Word).toNat ∧
    (0x0000 : Word).toNat + ([0xEA] : List Byte).length ≤ (0x0001 : Word).toNat :=
  ⟨⟨_, rfl⟩, ⟨_, rfl⟩, by decide, rfl, by decide, by decide⟩

theorem witness_RunStopsAtEnd :
    (State.reset.setRun .halted).ended = true ∧ (State.reset.raise (.decodeFailure 0x02 0x0000)).ended = true ∧
    State.reset.run = .running := by decide


end Sys2Proof.Tests
end

section
/-! SUPPORT. The meaning of an instruction by its class: every arm of `exec` is its class's accesses (40 R117, R118)
around what its mnemonic makes of the operand byte. A proof about `exec` then has the thirteen classes as its cases. -/

namespace Sys2Proof.Proofs

open Sys2Proof.Machine Sys2Proof.Laws

/-- A one-operand operation on A and P (42 R154, the accumulator form). -/
def alterA (op : Byte → Byte → Altered) (s : State) : State := (s.setA (op s.a s.p).value).setP (op s.a s.p).p

/-- PC moved by the offset when the condition holds (46 R221). -/
def branchTo (cond : Bool) (off : Byte) (s : State) : State := if cond then s.setPc (s.pc + sext16 off) else s

/-- The one-operand operation of a mnemonic (42 R150 to R156). -/
def alter : Mnemonic → Byte → Byte → Altered
  | .asl => aslOp
  | .lsr => lsrOp
  | .rol => rolOp
  | .ror => rorOp
  | .inc => incOp
  | .dec => decOp
  | _ => fun old p => ⟨old, p⟩

/-- What a mnemonic makes of its operand byte (read, pulled, or a branch's offset) and the state, outside its bus
accesses. The mnemonics whose class says all they do change nothing here. -/
def effect : Mnemonic → Byte → State → State
  | .adc => adcEffect
  | .sbc => sbcEffect
  | .and => andEffect
  | .ora => oraEffect
  | .eor => eorEffect
  | .cmp => cmpEffect
  | .cpx => cpxEffect
  | .cpy => cpyEffect
  | .bit => bitEffect
  | .lda => ldaEffect
  | .ldx => ldxEffect
  | .ldy => ldyEffect
  | .pla => fun v s => (s.setA v).setZN v
  | .plp => fun v s => s.setP v
  | .asl => fun _ => alterA (alter .asl)
  | .lsr => fun _ => alterA (alter .lsr)
  | .rol => fun _ => alterA (alter .rol)
  | .ror => fun _ => alterA (alter .ror)
  | .bpl => fun off s => branchTo (!s.flag .n) off s
  | .bmi => fun off s => branchTo (s.flag .n) off s
  | .bvc => fun off s => branchTo (!s.flag .v) off s
  | .bvs => fun off s => branchTo (s.flag .v) off s
  | .bcc => fun off s => branchTo (!s.flag .c) off s
  | .bcs => fun off s => branchTo (s.flag .c) off s
  | .bne => fun off s => branchTo (!s.flag .z) off s
  | .beq => fun off s => branchTo (s.flag .z) off s
  | .clc => fun _ s => s.setFlag .c false
  | .sec => fun _ s => s.setFlag .c true
  | .cli => fun _ s => s.setFlag .i false
  | .sei => fun _ s => s.setFlag .i true
  | .cld => fun _ s => s.setFlag .d false
  | .sed => fun _ s => s.setFlag .d true
  | .clv => fun _ s => s.setFlag .v false
  | .inx => fun _ s => (s.setX (s.x + 1)).setZN (s.x + 1)
  | .iny => fun _ s => (s.setY (s.y + 1)).setZN (s.y + 1)
  | .dex => fun _ s => (s.setX (s.x - 1)).setZN (s.x - 1)
  | .dey => fun _ s => (s.setY (s.y - 1)).setZN (s.y - 1)
  | .tax => fun _ s => (s.setX s.a).setZN s.a
  | .tay => fun _ s => (s.setY s.a).setZN s.a
  | .txa => fun _ s => (s.setA s.x).setZN s.x
  | .tya => fun _ s => (s.setA s.y).setZN s.y
  | .tsx => fun _ s => (s.setX s.sp).setZN s.sp
  | .txs => fun _ s => s.setSp s.x
  | .hlt => fun _ s => s.setRun .halted
  | .nop | .sta | .stx | .sty | .inc | .dec | .pha | .php | .jmp | .jsr | .rts | .rti => fun _ s => s

/-- What a class does, given the opcode's address and the effect of the mnemonic (40 R117, R118). -/
def perform (opAt : Word) (eff : Byte → State → State) (k : OpClass) (s : State) : Res Unit :=
  match k with
  | .read src => (loadOperand opAt src s).bind fun v t => .done () (eff v t)
  | .write m reg => (resolve opAt m s).bind fun ea t => memWrite opAt ea (reg s) t
  | .modify m op => (resolve opAt m s).bind fun ea t => (memRead opAt ea t).bind fun old u =>
      (memWrite opAt ea (op old u.p).value u).bind fun _ q => .done () (q.setP (op old q.p).p)
  | .jump m => (resolve opAt m s).bind fun ea t => .done () (t.setPc ea)
  | .push v => push8 opAt (v s) s
  | .pull => (pull8 opAt s).bind fun v t => .done () (eff v t)
  | .call w => (push8 opAt (hi8 (s.pc - 1)) s).bind fun _ t =>
      (push8 opAt (lo8 (s.pc - 1)) t).bind fun _ u => .done () (u.setPc w)
  | .ret => (pull8 opAt s).bind fun lo t => (pull8 opAt t).bind fun hi u => .done () (u.setPc (wordOf hi lo + 1))
  | .rti => (pull8 opAt s).bind fun v t => (pull8 opAt (t.setP v)).bind fun lo u =>
      (pull8 opAt u).bind fun hi q => .done () (q.setPc (wordOf hi lo))
  | .branch off => .done () (eff off s)
  | .accumulator | .implied | .noEntry => .done () (eff 0 s)

/-- An instruction with a mnemonic does what its class does. -/
theorem exec_eq_perform {i : Instr} {m : Mnemonic} (h : mnemonicOf i = some m) (s : State) :
    exec i s = (perform (s.opAt (BitVec.ofNat 16 (lengthOf i))) (effect m) (classOf i) s).outcome := by
  cases i <;> cases h <;> rfl

/-- An instruction is a byte with no entry, or has a mnemonic (30 R74, R76). -/
theorem illegal_or_mnemonic (i : Instr) : (∃ op, i = .illegal op) ∨ ∃ m, mnemonicOf i = some m := by
  cases i with
  | illegal op => exact .inl ⟨op, rfl⟩
  | _ => exact .inr ⟨_, rfl⟩

theorem exec_illegal (op : Byte) (s : State) :
    exec (.illegal op) s = .next (s.raise (.decodeFailure op (s.opAt 1))) := rfl

theorem exec_hlt (s : State) : exec .hlt s = .next (s.setRun .halted) := rfl

theorem eq_hlt_of_mnemonic {i : Instr} (h : mnemonicOf i = some .hlt) : i = .hlt := by
  cases i with
  | hlt => rfl
  | _ => cases h

/-- A class `modify` carries its mnemonic's operation (42 R154). -/
theorem modify_op_eq {i : Instr} {m : Mnemonic} {mo : MemMode} {op : Byte → Byte → Altered}
    (hm : mnemonicOf i = some m) (hk : classOf i = .modify mo op) : op = alter m := by
  cases i <;> cases hk <;> cases hm <;> rfl

end Sys2Proof.Proofs
end

section
/-! SUPPORT. The accesses of every class, in order: all are serviced, or the first refused one raises its fault. -/

namespace Sys2Proof.Proofs

open Sys2Proof.Machine Sys2Proof.Laws

/-- The two states differ in the registers only: same run state, memory, bus and accesses seen. -/
structure SameHost (s t : State) : Prop where
  run : t.run = s.run
  mem : t.mem = s.mem
  bus : t.bus = s.bus
  trace : t.trace = s.trace

namespace SameHost

theorem refl (s : State) : SameHost s s := ⟨rfl, rfl, rfl, rfl⟩

theorem trans {s t u : State} (h : SameHost s t) (g : SameHost t u) : SameHost s u :=
  ⟨g.run.trans h.run, g.mem.trans h.mem, g.bus.trans h.bus, g.trace.trans h.trace⟩

theorem services {s t : State} (h : SameHost s t) (q : BusRequest) : t.services q = s.services q := by
  simp only [State.services, h.bus, h.trace]

theorem serviced {s t : State} (h : SameHost s t) (q : BusRequest) : SameHost (s.serviced q) (t.serviced q) := by
  obtain ⟨hr, hm, hb, ht⟩ := h
  cases q with
  | read a => exact ⟨hr, hm, hb, by simp [State.serviced, State.busByte, hm, hb, ht]⟩
  | write a v => exact ⟨hr, by simp [State.serviced, State.written, hm, hb, ht], hb, by simp [State.serviced, ht]⟩

theorem servicedAll {s t : State} (h : SameHost s t) (l : List BusRequest) :
    SameHost (s.servicedAll l) (t.servicedAll l) := by
  induction l generalizing s t with
  | nil => exact h
  | cons q l ih => exact ih (h.serviced q)

theorem servicesAll {s t : State} (h : SameHost s t) (l : List BusRequest) : t.servicesAll l = s.servicesAll l := by
  induction l generalizing s t with
  | nil => rfl
  | cons q l ih => rw [servicesAll_cons, servicesAll_cons, h.services, ih (h.serviced q)]

theorem raise {s t : State} (h : SameHost s t) (r : FaultRecord) : SameHost (s.raise r) (t.raise r) :=
  ⟨rfl, h.mem, h.bus, h.trace⟩

theorem setSp (s : State) (v : Byte) : SameHost s (s.setSp v) := ⟨rfl, rfl, rfl, rfl⟩

theorem setP (s : State) (v : Byte) : SameHost s (s.setP v) := ⟨rfl, rfl, rfl, rfl⟩

theorem setPc (s : State) (w : Word) : SameHost s (s.setPc w) := ⟨rfl, rfl, rfl, rfl⟩

end SameHost

/-- Serviced accesses leave the run state. -/
theorem servicedAll_run (s : State) (l : List BusRequest) : (s.servicedAll l).run = s.run := by
  induction l generalizing s with
  | nil => rfl
  | cons q l ih => rw [servicedAll_cons, ih]; cases q <;> rfl

/-- The operation's accesses from `s` on are `l`: done after the bus serviced them all, or raised at the first one it
refuses, with that access and the opcode's address on record (40 R118, 60 R242, R243). -/
def Makes {α : Type} (opAt : Word) (s : State) (l : List BusRequest) : Res α → Prop
  | .done _ t => s.servicesAll l = true ∧ SameHost (s.servicedAll l) t
  | .raised t => ∃ pre q post, l = pre ++ q :: post ∧ s.servicesAll pre = true ∧
      (s.servicedAll pre).services q = false ∧
      SameHost ((s.servicedAll pre).raise (.addressingFailure q.addr q.kind opAt)) t

section
variable {α β : Type} {opAt : Word} {s : State} {l : List BusRequest}

theorem Makes.done {t : State} (v : α) (h : SameHost s t) : Makes opAt s [] (.done v t) := ⟨rfl, h⟩

/-- The accesses are the same from a state that differs in registers only. -/
theorem Makes.of_sameHost {t : State} {r : Res α} (h : SameHost s t) (hr : Makes opAt t l r) : Makes opAt s l r := by
  cases r with
  | done v u =>
    obtain ⟨hs, hu⟩ := hr
    exact ⟨(h.servicesAll l).symm.trans hs, (h.servicedAll l).trans hu⟩
  | raised u =>
    obtain ⟨pre, q, post, hl, hs, hq, hu⟩ := hr
    exact ⟨pre, q, post, hl, (h.servicesAll pre).symm.trans hs, ((h.servicedAll pre).services q).symm.trans hq,
      ((h.servicedAll pre).raise _).trans hu⟩

/-- One operation after another: the accesses of the first, then those of the second. -/
theorem Makes.bind {k : List BusRequest} {r : Res α} {f : α → State → Res β} (hr : Makes opAt s l r)
    (hf : ∀ v t, r = .done v t → Makes opAt t k (f v t)) : Makes opAt s (l ++ k) (r.bind f) := by
  cases r with
  | raised t =>
    obtain ⟨pre, q, post, rfl, hs, hq, ht⟩ := hr
    exact ⟨pre, q, post ++ k, by simp, hs, hq, ht⟩
  | done v t =>
    obtain ⟨hs, ht⟩ := hr
    have hk := (hf v t rfl).of_sameHost ht
    rw [bind_done]
    match f v t, hk with
    | .done w u, ⟨hks, hu⟩ => exact ⟨by rw [servicesAll_append, hs, hks]; rfl, by rwa [servicedAll_append]⟩
    | .raised u, ⟨pre, q, post, hk, hks, hq, hu⟩ =>
      refine ⟨l ++ pre, q, post, by rw [hk, List.append_assoc], ?_, ?_, ?_⟩
      · rw [servicesAll_append, hs, hks]; rfl
      · rwa [servicedAll_append]
      · rwa [servicedAll_append]

/-- An operation followed by a change of registers. -/
theorem Makes.andThen {r : Res α} {g : α → State → State} (hr : Makes opAt s l r) (hg : ∀ v t, SameHost t (g v t)) :
    Makes opAt s l (r.bind fun v t => .done () (g v t)) := by
  have h : Makes opAt s (l ++ []) (r.bind fun v t => .done () (g v t)) := hr.bind fun v t _ => .done () (hg v t)
  rwa [List.append_nil] at h

end

/-- An access alone: refused, it is the first one. -/
theorem Makes.refused {α : Type} {opAt : Word} {s : State} {q : BusRequest} (h : s.services q = false) :
    Makes opAt s [q] (.raised (s.raise (.addressingFailure q.addr q.kind opAt)) : Res α) :=
  ⟨[], q, [], rfl, rfl, h, .refl _⟩

/-- An access alone: serviced. -/
theorem Makes.serviced {α : Type} {opAt : Word} {s : State} {q : BusRequest} (v : α) (h : s.services q = true) :
    Makes opAt s [q] (.done v (s.serviced q)) :=
  ⟨by simp [h], .refl _⟩

theorem memRead_makes (opAt a : Word) (s : State) : Makes opAt s [.read a] (memRead opAt a s) := by
  cases h : s.services (.read a) with
  | true => rw [memRead_serviced h]; exact .serviced _ h
  | false => rw [memRead_refused h]; exact .refused h

theorem memWrite_makes (opAt a : Word) (v : Byte) (s : State) :
    Makes opAt s [.write a v] (memWrite opAt a v s) := by
  cases h : s.services (.write a v) with
  | true => rw [memWrite_serviced h]; exact .serviced _ h
  | false => rw [memWrite_refused h]; exact .refused h

theorem push8_makes (opAt : Word) (v : Byte) (s : State) :
    Makes opAt s [.write (stackAddr s.sp) v] (push8 opAt v s) :=
  (memWrite_makes opAt _ v s).andThen fun _ _ => .setSp _ _

theorem pull8_makes (opAt : Word) (s : State) : Makes opAt s [.read (stackAddr (s.sp + 1))] (pull8 opAt s) :=
  (memRead_makes opAt _ (s.setSp (s.sp + 1))).of_sameHost (.setSp s _)

theorem memRead_done {opAt a : Word} {s t : State} {v : Byte} (h : memRead opAt a s = .done v t) :
    v = s.busByte a ∧ t = s.record .read a v := by
  cases hs : s.services (.read a) with
  | true => rw [memRead_serviced hs] at h; cases h; exact ⟨rfl, rfl⟩
  | false => rw [memRead_refused hs] at h; cases h

theorem push8_done_sp {opAt : Word} {v : Byte} {s t : State} {u : Unit} (h : push8 opAt v s = .done u t) :
    t.sp = s.sp - 1 := by
  cases hs : s.services (.write (stackAddr s.sp) v) with
  | true => rw [push8_serviced hs] at h; cases h; rfl
  | false => rw [push8_refused hs] at h; cases h

theorem pull8_done_sp {opAt : Word} {s t : State} {v : Byte} (h : pull8 opAt s = .done v t) : t.sp = s.sp + 1 := by
  cases hs : s.services (.read (stackAddr (s.sp + 1))) with
  | true => rw [pull8_serviced hs] at h; cases h; rfl
  | false => rw [pull8_refused hs] at h; cases h

theorem readPointer_makes (opAt lo hi : Word) (s : State) :
    Makes opAt s [.read lo, .read hi] (readPointer opAt lo hi s) :=
  (memRead_makes opAt lo s).bind (k := [.read hi]) fun _ t _ =>
    (memRead_makes opAt hi t).bind (k := []) fun _ u _ => .done _ (.refl u)

/-- The resolver makes its pointer reads (40 R113 to R115). -/
theorem resolve_makes (opAt : Word) (m : MemMode) (s : State) :
    Makes opAt s ((m.pointerReads s).map .read) (resolve opAt m s) := by
  cases m with
  | ind w => exact readPointer_makes opAt _ _ s
  | izx b => exact readPointer_makes opAt _ _ s
  | izy b => exact (readPointer_makes opAt _ _ s).bind (k := []) fun _ u _ => .done _ (.refl u)
  | zp | zpx | zpy | abs | abx | aby => exact .done _ (.refl s)

/-- A resolver that is done has given the effective address, and only its pointer reads are noted. -/
theorem resolve_done {opAt : Word} {m : MemMode} {s t : State} {ea : Word} (h : resolve opAt m s = .done ea t) :
    ea = m.ea s ∧ t = s.recordReads (m.pointerReads s) := by
  have hm := resolve_makes opAt m s
  rw [h] at hm
  have hs : s.servicesReads (m.pointerReads s) = true := hm.1
  rw [resolve_serviced hs] at h
  cases h
  exact ⟨rfl, rfl⟩

theorem loadOperand_makes (opAt : Word) (src : Src) (s : State) :
    Makes opAt s ((src.reads s).map .read) (loadOperand opAt src s) := by
  cases src with
  | imm v => exact .done v (.refl s)
  | mem m =>
    rw [Src.reads, List.map_append]
    refine (resolve_makes opAt m s).bind fun ea t h => ?_
    obtain ⟨rfl, -⟩ := resolve_done h
    exact memRead_makes opAt _ t

/-- A read-modify-write, its operation's value computed from the byte read and P as it was (42 R154). -/
theorem modify_makes (opAt : Word) (eff : Byte → State → State) (m : MemMode) (op : Byte → Byte → Altered)
    (s : State) : Makes opAt s ((OpClass.modify m op).accesses s) (perform opAt eff (.modify m op) s) := by
  refine (resolve_makes opAt m s).bind fun ea t h => ?_
  obtain ⟨rfl, rfl⟩ := resolve_done h
  refine (memRead_makes opAt _ _).bind (k := [.write (m.ea s) (m.altered op s).value]) fun old u hu => ?_
  obtain ⟨rfl, rfl⟩ := memRead_done hu
  have hp : ((s.recordReads (m.pointerReads s)).record .read (m.ea s)
      ((s.recordReads (m.pointerReads s)).busByte (m.ea s))).p = s.p := by simp
  rw [hp]
  exact (memWrite_makes opAt _ _ _).andThen fun _ _ => .setP _ _

/-- Every class makes the accesses of its row of the table (40 R118), up to the first that is refused. -/
theorem perform_makes {eff : Byte → State → State} (heff : ∀ v t, SameHost t (eff v t)) (opAt : Word) (k : OpClass)
    (s : State) : Makes opAt s (k.accesses s) (perform opAt eff k s) := by
  cases k with
  | read src => exact (loadOperand_makes opAt src s).andThen heff
  | write m reg =>
    refine (resolve_makes opAt m s).bind fun ea t h => ?_
    obtain ⟨rfl, -⟩ := resolve_done h
    exact memWrite_makes opAt _ _ t
  | modify m op => exact modify_makes opAt eff m op s
  | jump m => exact (resolve_makes opAt m s).andThen fun _ _ => .setPc _ _
  | push v => exact push8_makes opAt _ s
  | pull => exact (pull8_makes opAt s).andThen heff
  | call w =>
    refine (push8_makes opAt _ s).bind (k := [.write (stackAddr (s.sp - 1)) (lo8 (s.pc - 1))]) fun _ t h => ?_
    rw [← push8_done_sp h]
    exact (push8_makes opAt _ t).andThen fun _ _ => .setPc _ _
  | ret =>
    refine (pull8_makes opAt s).bind (k := [.read (stackAddr (s.sp + 2))]) fun _ t h => ?_
    have hsp : s.sp + 2 = t.sp + 1 := by rw [pull8_done_sp h]; bv_omega
    rw [hsp]
    exact (pull8_makes opAt t).andThen fun _ _ => .setPc _ _
  | rti =>
    refine (pull8_makes opAt s).bind (k := [.read (stackAddr (s.sp + 2)), .read (stackAddr (s.sp + 3))])
      fun v t h => ?_
    have hsp : s.sp + 2 = (t.setP v).sp + 1 := by rw [setP_sp, pull8_done_sp h]; bv_omega
    rw [hsp]
    refine Makes.of_sameHost (.setP t v) ((pull8_makes opAt _).bind fun _ u hu => ?_)
    have hsp' : s.sp + 3 = u.sp + 1 := by rw [pull8_done_sp hu, ← hsp]; bv_omega
    rw [hsp']
    exact (pull8_makes opAt u).andThen fun _ _ => .setPc _ _
  | branch off => exact .done () (heff _ s)
  | accumulator => exact .done () (heff _ s)
  | implied => exact .done () (heff _ s)
  | noEntry => exact .done () (heff _ s)

theorem branchTo_sameHost (cond : Bool) (off : Byte) (s : State) : SameHost s (branchTo cond off s) := by
  cases cond with
  | true => exact .setPc s _
  | false => exact .refl s

/-- HLT apart, what a mnemonic makes of its operand is registers only. -/
theorem effect_sameHost {m : Mnemonic} (hm : m ≠ .hlt) (v : Byte) (s : State) : SameHost s (effect m v s) := by
  cases m with
  | hlt => exact absurd rfl hm
  | bpl | bmi | bvc | bvs | bcc | bcs | bne | beq => exact branchTo_sameHost _ v s
  | _ => exact ⟨rfl, rfl, rfl, rfl⟩

/-- Everything an instruction with a mnemonic, other than HLT, does to the host's side of the state. -/
theorem exec_makes {i : Instr} {m : Mnemonic} (h : mnemonicOf i = some m) (hm : m ≠ .hlt) (s : State) :
    ∃ r : Res Unit, exec i s = r.outcome ∧ Makes (s.pc - BitVec.ofNat 16 (lengthOf i)) s (accesses i s) r :=
  ⟨_, exec_eq_perform h s, perform_makes (effect_sameHost hm) _ _ s⟩

/-- Settles O13, by the first refused access of the instruction's class, if there is one. -/
theorem runStateChanges : Obligations.RunStateChanges := by
  unfold Obligations.RunStateChanges
  intro i s t ht
  obtain ⟨op, rfl⟩ | ⟨m, hm⟩ := illegal_or_mnemonic i
  · cases (exec_illegal op s).symm.trans ht
    exact .inr (.inr (.inl ⟨op, rfl, rfl⟩))
  by_cases hh : m = .hlt
  · subst hh
    obtain rfl := eq_hlt_of_mnemonic hm
    cases (exec_hlt s).symm.trans ht
    exact .inr (.inl ⟨rfl, rfl⟩)
  obtain ⟨r, hr, hmk⟩ := exec_makes hm hh s
  rw [hr] at ht
  cases r with
  | done v u =>
    cases ht
    exact .inl (hmk.2.run.trans (servicedAll_run s _))
  | raised u =>
    cases ht
    obtain ⟨pre, q, post, hl, hs, hq, hu⟩ := hmk
    exact .inr (.inr (.inr ⟨pre, q, post, hl, hs, hq, hu.run⟩))

/-- Three bytes that decode to an instruction begin with its opcode byte. -/
theorem opcode_of_decode_stream {s : State} {i : Instr} {rest : List Byte} (h : decode (s.stream 3) = .ok (i, rest)) :
    s.busByte s.pc = opcodeOf i := by
  obtain ⟨j, tail, hd, -, he, -⟩ := decode_three (s.busByte s.pc) (s.afterByte.busByte s.afterByte.pc)
    (s.afterByte.afterByte.busByte s.afterByte.afterByte.pc)
  cases h.symm.trans hd
  exact (List.cons.inj he).1

/-- Only a Running state has a next state (40 R120). -/
theorem running_of_step_next {s t : State} (h : step s = .next t) : s.run = .running := by
  unfold step at h
  split at h
  · assumption
  · cases h
  · cases h

/-- A fetched instruction is executed (40 R100). -/
theorem step_of_fetched {s t : State} {i : Instr} (hs : s.run = .running) (hf : fetch s = .done i t) :
    step s = exec i t := by
  rw [step, hs, hf]

/-- A refused fetch ends the step (60 R242). -/
theorem step_of_refused {s t : State} (hs : s.run = .running) (hf : fetch s = .raised t) : step s = .next t := by
  rw [step, hs, hf]

/-- Fetching leaves the run state. -/
theorem afterFetch_run (s : State) (n : Nat) : (s.afterFetch n).run = s.run := by
  obtain ⟨l, hl⟩ := afterFetch_eq s n
  rw [hl]

/-- Settles O11: no fetch halts, and no exec from a Running state but HLT's. -/
theorem haltedOnlyThroughHlt : Obligations.HaltedOnlyThroughHlt := by
  unfold Obligations.HaltedOnlyThroughHlt
  intro s t hst hrun
  have hs := running_of_step_next hst
  obtain ⟨i, rest, hd, -, ⟨-, hf⟩ | ⟨n, -, -, -, hf⟩⟩ := fetch_cases s
  · rw [step_of_fetched hs hf] at hst
    have hrun' : (s.afterFetch (lengthOf i)).run = .running := (afterFetch_run s _).trans hs
    rcases runStateChanges i _ t hst with h | ⟨rfl, -⟩ | ⟨op, -, h⟩ | ⟨_, _, _, -, -, -, h⟩
    · rw [hrun, hrun'] at h
      cases h
    · have hb : s.busByte s.pc = 0x00 := opcode_of_decode_stream hd
      refine ⟨hb, ?_⟩
      cases (exec_hlt _).symm.trans hst
      rw [← hb]
      rfl
    · rw [hrun] at h
      cases h
    · rw [hrun] at h
      cases h
  · rw [step_of_refused hs hf] at hst
    cases hst
    cases hrun

end Sys2Proof.Proofs
end

section
/-! SUPPORT. What an instruction leaves: every register and flag outside its row of 10_state.md R32, whatever its bus
accesses end in. -/

namespace Sys2Proof.Proofs

open Sys2Proof.Machine Sys2Proof.Laws

/-- Two status bytes agree on every flag outside the list. -/
def SameFlags (out : List Flag) (p q : Byte) : Prop := ∀ f, f ∉ out → getFlag q f = getFlag p f

section
variable {out : List Flag} {p q : Byte}

theorem SameFlags.refl (out : List Flag) (p : Byte) : SameFlags out p p := fun _ _ => rfl

/-- Writing a listed flag. -/
theorem SameFlags.write {f : Flag} (hf : f ∈ out) (v : Bool) (h : SameFlags out p q) :
    SameFlags out p (putFlag q f v) := by
  intro g hg
  have hne : g ≠ f := fun e => hg (e ▸ hf)
  rw [getFlag_putFlag, if_neg hne, h g hg]

theorem SameFlags.writeZN (hz : .z ∈ out) (hn : .n ∈ out) (v : Byte) (h : SameFlags out p q) :
    SameFlags out p (zn q v) :=
  (h.write hz _).write hn _

/-- Writing any flag alike on both sides. -/
theorem SameFlags.putFlag (h : SameFlags out p q) (f : Flag) (v : Bool) :
    SameFlags out (putFlag p f v) (putFlag q f v) := by
  intro g hg
  rw [getFlag_putFlag, getFlag_putFlag, h g hg]

theorem SameFlags.zn (h : SameFlags out p q) (v : Byte) : SameFlags out (zn p v) (zn q v) :=
  (h.putFlag .z _).putFlag .n _

end

/-- `t` has the registers outside `rs` and the flags outside `fs` that `s` has. -/
structure Keeps (rs : List Reg) (fs : List Flag) (s t : State) : Prop where
  a : .a ∉ rs → t.a = s.a
  x : .x ∉ rs → t.x = s.x
  y : .y ∉ rs → t.y = s.y
  sp : .sp ∉ rs → t.sp = s.sp
  pc : .pc ∉ rs → t.pc = s.pc
  flags : SameFlags fs s.p t.p

namespace Keeps

variable {rs : List Reg} {fs : List Flag} {s t : State}

theorem refl (rs : List Reg) (fs : List Flag) (s : State) : Keeps rs fs s s :=
  ⟨fun _ => rfl, fun _ => rfl, fun _ => rfl, fun _ => rfl, fun _ => rfl, .refl fs s.p⟩

theorem trans {u : State} (h : Keeps rs fs s t) (g : Keeps rs fs t u) : Keeps rs fs s u where
  a hr := (g.a hr).trans (h.a hr)
  x hr := (g.x hr).trans (h.x hr)
  y hr := (g.y hr).trans (h.y hr)
  sp hr := (g.sp hr).trans (h.sp hr)
  pc hr := (g.pc hr).trans (h.pc hr)
  flags f hf := (g.flags f hf).trans (h.flags f hf)

theorem setA (hr : .a ∈ rs) (v : Byte) (h : Keeps rs fs s t) : Keeps rs fs s (t.setA v) :=
  { h with a := fun hn => absurd hr hn }

theorem setX (hr : .x ∈ rs) (v : Byte) (h : Keeps rs fs s t) : Keeps rs fs s (t.setX v) :=
  { h with x := fun hn => absurd hr hn }

theorem setY (hr : .y ∈ rs) (v : Byte) (h : Keeps rs fs s t) : Keeps rs fs s (t.setY v) :=
  { h with y := fun hn => absurd hr hn }

theorem setSp (hr : .sp ∈ rs) (v : Byte) (h : Keeps rs fs s t) : Keeps rs fs s (t.setSp v) :=
  { h with sp := fun hn => absurd hr hn }

theorem setPc (hr : .pc ∈ rs) (w : Word) (h : Keeps rs fs s t) : Keeps rs fs s (t.setPc w) :=
  { h with pc := fun hn => absurd hr hn }

theorem setP {v : Byte} (hv : SameFlags fs t.p v) (h : Keeps rs fs s t) : Keeps rs fs s (t.setP v) :=
  { h with flags := fun f hf => (hv f hf).trans (h.flags f hf) }

theorem setFlag {f : Flag} (hf : f ∈ fs) (v : Bool) (h : Keeps rs fs s t) : Keeps rs fs s (t.setFlag f v) :=
  h.setP ((SameFlags.refl fs t.p).write hf v)

theorem setZN (hz : .z ∈ fs) (hn : .n ∈ fs) (v : Byte) (h : Keeps rs fs s t) : Keeps rs fs s (t.setZN v) :=
  h.setP ((SameFlags.refl fs t.p).writeZN hz hn v)

theorem setRun (r : RunState) (h : Keeps rs fs s t) : Keeps rs fs s (t.setRun r) := { h with }

theorem record (k : AccessKind) (a : Word) (v : Byte) (h : Keeps rs fs s t) : Keeps rs fs s (t.record k a v) :=
  { h with }

theorem store (a : Word) (v : Byte) (h : Keeps rs fs s t) : Keeps rs fs s (t.store a v) := { h with }

end Keeps

/-- The state an operation ends in, done or raised. -/
def endOf {α : Type} : Res α → State
  | .done _ t => t
  | .raised t => t

theorem outcome_eq_next (r : Res Unit) : r.outcome = .next (endOf r) := by
  cases r <;> rfl

section
variable {rs : List Reg} {fs : List Flag} {s : State}

/-- One operation after another. -/
theorem Keeps.bind {α β : Type} {r : Res α} {f : α → State → Res β} (hr : Keeps rs fs s (endOf r))
    (hf : ∀ v t, Keeps rs fs s t → Keeps rs fs s (endOf (f v t))) : Keeps rs fs s (endOf (r.bind f)) := by
  cases r with
  | done v t => exact hf v t hr
  | raised t => exact hr

theorem memRead_keeps {t : State} (opAt a : Word) (h : Keeps rs fs s t) : Keeps rs fs s (endOf (memRead opAt a t)) := by
  cases hs : t.services (.read a) with
  | true => rw [memRead_serviced hs]; exact h.record _ _ _
  | false => rw [memRead_refused hs]; exact h.setRun _

theorem memWrite_keeps {t : State} (opAt a : Word) (v : Byte) (h : Keeps rs fs s t) :
    Keeps rs fs s (endOf (memWrite opAt a v t)) := by
  cases hs : t.services (.write a v) with
  | true => rw [memWrite_serviced hs]; exact h.store a v
  | false => rw [memWrite_refused hs]; exact h.setRun _

theorem push8_keeps {t : State} (hr : .sp ∈ rs) (opAt : Word) (v : Byte) (h : Keeps rs fs s t) :
    Keeps rs fs s (endOf (push8 opAt v t)) :=
  (memWrite_keeps opAt _ v h).bind fun _ _ hu => hu.setSp hr _

theorem pull8_keeps {t : State} (hr : .sp ∈ rs) (opAt : Word) (h : Keeps rs fs s t) :
    Keeps rs fs s (endOf (pull8 opAt t)) :=
  memRead_keeps opAt _ (h.setSp hr _)

theorem readPointer_keeps {t : State} (opAt lo hi : Word) (h : Keeps rs fs s t) :
    Keeps rs fs s (endOf (readPointer opAt lo hi t)) :=
  (memRead_keeps opAt lo h).bind fun _ _ hu => (memRead_keeps opAt hi hu).bind fun _ _ hq => hq

theorem resolve_keeps {t : State} (opAt : Word) (m : MemMode) (h : Keeps rs fs s t) :
    Keeps rs fs s (endOf (resolve opAt m t)) := by
  cases m with
  | ind w => exact readPointer_keeps opAt _ _ h
  | izx b => exact readPointer_keeps opAt _ _ h
  | izy b => exact (readPointer_keeps opAt _ _ h).bind fun _ _ hu => hu
  | zp | zpx | zpy | abs | abx | aby => exact h

theorem loadOperand_keeps {t : State} (opAt : Word) (src : Src) (h : Keeps rs fs s t) :
    Keeps rs fs s (endOf (loadOperand opAt src t)) := by
  cases src with
  | imm v => exact h
  | mem m => exact (resolve_keeps opAt m h).bind fun ea _ hu => memRead_keeps opAt ea hu

end

/-- The registers a class writes of itself, whatever the mnemonic. -/
def classRegs : OpClass → List Reg
  | .push _ | .pull => [.sp]
  | .jump _ => [.pc]
  | .call _ | .ret | .rti => [.sp, .pc]
  | _ => []

/-- What a class writes of itself is in the rows of its instructions (10 R32). -/
theorem classRegs_subset (i : Instr) : classRegs (classOf i) ⊆ regsOf i := by
  cases i with
  | jmpAbs | jmpInd | jsr | pha | php | plp | rts | rti => exact List.Subset.refl _
  | pla => exact List.subset_cons_self _ _
  | _ => exact List.nil_subset _

/-- The row of a mnemonic's instruction (10 R32) is the row with the accumulator form's, memory shifts and rotates
apart. -/
theorem regsOf_eq {i : Instr} {m : Mnemonic} (h : mnemonicOf i = some m)
    (hk : ∀ mo op, classOf i ≠ .modify mo op) : regsOf i = registersWritten m .acc := by
  cases i with
  | aslZp | aslZpx | aslAbs | aslAbx | lsrZp | lsrZpx | lsrAbs | lsrAbx
  | rolZp | rolZpx | rolAbs | rolAbx | rorZp | rorZpx | rorAbs | rorAbx => exact absurd rfl (hk _ _)
  | illegal => cases h
  | _ => cases h; rfl

theorem flagsOf_eq {i : Instr} {m : Mnemonic} (h : mnemonicOf i = some m) : flagsOf i = flagsWritten m := by
  rw [flagsOf, h]

/-- PLP and RTI write all of P. -/
theorem mem_flagsWritten_rti (f : Flag) : f ∈ flagsWritten .rti := by cases f <;> decide

theorem eq_rti_of_class {i : Instr} (h : classOf i = .rti) : mnemonicOf i = some .rti := by
  cases i with
  | rti => rfl
  | _ => cases h

/-- The one-operand operations write N and Z, the shifts and rotates C too (10 R32). -/
theorem alter_keeps_flags (m : Mnemonic) (old p : Byte) : SameFlags (flagsWritten m) p (alter m old p).p := by
  have h := SameFlags.refl (flagsWritten m) p
  cases m with
  | asl | lsr | rol | ror => exact (h.write (by decide) _).writeZN (by decide) (by decide) _
  | inc | dec => exact h.writeZN (by decide) (by decide) _
  | _ => exact h

theorem alterA_keeps {rs : List Reg} (hr : .a ∈ rs) (m : Mnemonic) (s : State) :
    Keeps rs (flagsWritten m) s (alterA (alter m) s) :=
  ((Keeps.refl _ _ s).setA hr _).setP (alter_keeps_flags m s.a s.p)

theorem branchTo_keeps {rs : List Reg} (hr : .pc ∈ rs) (fs : List Flag) (cond : Bool) (off : Byte) (s : State) :
    Keeps rs fs s (branchTo cond off s) := by
  cases cond with
  | true => exact (Keeps.refl _ _ s).setPc hr _
  | false => exact .refl _ _ s

theorem sumFlags_keeps (p : Byte) (q : Sum) : SameFlags (flagsWritten .adc) p (sumFlags p q) :=
  (((SameFlags.refl _ p).write (f := .c) (by decide) _).write (f := .v) (by decide) _).writeZN (by decide) (by decide) _

theorem compareFlags_keeps (p r m : Byte) : SameFlags (flagsWritten .cmp) p (compareFlags p r m) :=
  ((SameFlags.refl _ p).write (f := .c) (by decide) _).writeZN (by decide) (by decide) _

theorem bitFlags_keeps (p a m : Byte) : SameFlags (flagsWritten .bit) p (bitFlags p a m) :=
  (((SameFlags.refl _ p).write (f := .z) (by decide) _).write (f := .v) (by decide) _).write (f := .n) (by decide) _

/-- What a mnemonic makes of its operand writes its row of R32 only. -/
theorem effect_keeps (m : Mnemonic) (v : Byte) (s : State) :
    Keeps (registersWritten m .acc) (flagsWritten m) s (effect m v s) := by
  have h := Keeps.refl (registersWritten m .acc) (flagsWritten m) s
  cases m with
  | adc | sbc => exact (h.setA (by decide) _).setP (sumFlags_keeps _ _)
  | and | ora | eor | lda | txa | tya | pla => exact (h.setA (by decide) _).setZN (by decide) (by decide) _
  | ldx | tax | tsx | inx | dex => exact (h.setX (by decide) _).setZN (by decide) (by decide) _
  | ldy | tay | iny | dey => exact (h.setY (by decide) _).setZN (by decide) (by decide) _
  | cmp | cpx | cpy => exact h.setP (compareFlags_keeps _ _ _)
  | bit => exact h.setP (bitFlags_keeps _ _ _)
  | plp => exact h.setP fun f hf => absurd (mem_flagsWritten_rti f) hf
  | asl | lsr | rol | ror => exact alterA_keeps (by decide) _ s
  | bpl | bmi | bvc | bvs | bcc | bcs | bne | beq => exact branchTo_keeps (by decide) _ _ v s
  | clc | sec | cli | sei | cld | sed | clv => exact h.setFlag (by decide) _
  | txs => exact h.setSp (by decide) _
  | hlt => exact h.setRun _
  | nop | sta | stx | sty | inc | dec | pha | php | jmp | jsr | rts | rti => exact h

/-- What a class does keeps what its own writes, its mnemonic's effect and its operation keep. -/
theorem perform_keeps {rs : List Reg} {fs : List Flag} {eff : Byte → State → State} {k : OpClass}
    (hr : classRegs k ⊆ rs) (heff : (∀ mo op, k ≠ .modify mo op) → ∀ v t, Keeps rs fs t (eff v t))
    (hop : ∀ mo op, k = .modify mo op → ∀ old p, SameFlags fs p (op old p).p) (hrti : k = .rti → ∀ f, f ∈ fs)
    (opAt : Word) (s : State) : Keeps rs fs s (endOf (perform opAt eff k s)) := by
  have h := Keeps.refl rs fs s
  cases k with
  | read src => exact (loadOperand_keeps opAt src h).bind fun v t ht => ht.trans (heff nofun v t)
  | write m reg => exact (resolve_keeps opAt m h).bind fun ea _ ht => memWrite_keeps opAt ea _ ht
  | modify m op =>
    exact (resolve_keeps opAt m h).bind fun ea t ht => (memRead_keeps opAt ea ht).bind fun old u hu =>
      (memWrite_keeps opAt ea _ hu).bind fun _ q hq => hq.setP (hop m op rfl old q.p)
  | jump m => exact (resolve_keeps opAt m h).bind fun ea _ ht => ht.setPc (hr (by simp [classRegs])) ea
  | push v => exact push8_keeps (hr (by simp [classRegs])) opAt _ h
  | pull => exact (pull8_keeps (hr (by simp [classRegs])) opAt h).bind fun v t ht => ht.trans (heff nofun v t)
  | call w =>
    have hsp : .sp ∈ rs := hr (by simp [classRegs])
    exact (push8_keeps hsp opAt _ h).bind fun _ _ ht => (push8_keeps hsp opAt _ ht).bind fun _ _ hu =>
      hu.setPc (hr (by simp [classRegs])) w
  | ret =>
    have hsp : .sp ∈ rs := hr (by simp [classRegs])
    exact (pull8_keeps hsp opAt h).bind fun _ _ ht => (pull8_keeps hsp opAt ht).bind fun _ _ hu =>
      hu.setPc (hr (by simp [classRegs])) _
  | rti =>
    have hsp : .sp ∈ rs := hr (by simp [classRegs])
    exact (pull8_keeps hsp opAt h).bind fun v _ ht =>
      (pull8_keeps hsp opAt (ht.setP fun f hf => absurd (hrti rfl f) hf)).bind fun _ _ hu =>
        (pull8_keeps hsp opAt hu).bind fun _ _ hq => hq.setPc (hr (by simp [classRegs])) _
  | branch | accumulator | implied | noEntry => exact heff nofun _ s

/-- Every instruction keeps what its row of R32 does not write, whatever its accesses end in. -/
theorem exec_keeps {i : Instr} {s t : State} (h : exec i s = .next t) : Keeps (regsOf i) (flagsOf i) s t := by
  obtain ⟨op, rfl⟩ | ⟨m, hm⟩ := illegal_or_mnemonic i
  · cases h
    exact (Keeps.refl _ _ s).setRun _
  · rw [exec_eq_perform hm, outcome_eq_next] at h
    cases h
    refine perform_keeps (classRegs_subset i) (fun hk v t => ?_) (fun mo op hk old p => ?_) (fun hk f => ?_) _ s
    · rw [regsOf_eq hm hk, flagsOf_eq hm]
      exact effect_keeps m v t
    · rw [modify_op_eq hm hk, flagsOf_eq hm]
      exact alter_keeps_flags m old p
    · rw [flagsOf_eq (eq_rti_of_class hk)]
      exact mem_flagsWritten_rti f

/-- Settles O17: the registers of `exec_keeps`. -/
theorem registerFrame : Obligations.RegisterFrame := by
  unfold Obligations.RegisterFrame
  intro i s t h
  obtain ⟨ha, hx, hy, hsp, hpc, -⟩ := exec_keeps h
  exact ⟨ha, hx, hy, hsp, hpc⟩

/-- Settles O18: the flags of `exec_keeps`. -/
theorem flagFrame : Obligations.FlagFrame := by
  unfold Obligations.FlagFrame
  intro i s t f h hf
  exact (exec_keeps h).flags f hf

end Sys2Proof.Proofs
end

section
/-! SUPPORT. Two states that differ only in what no instruction reads: flags other than C, Z, V and N, and what a bus
that takes no notice of it has seen. Every instruction, run in both, ends alike. -/

namespace Sys2Proof.Proofs

open Sys2Proof.Machine Sys2Proof.Laws

/-- A bus that takes no notice of what it has seen replies by the request alone. -/
theorem stateless_reply {b : Bus} (h : b.stateless) (seen seen' : List BusAccess) (q : BusRequest) :
    b.reply seen q = b.reply seen' q :=
  (h seen q).1.trans (h seen' q).1.symm

/-- Such a bus services by the request alone. -/
theorem stateless_services {b : Bus} (h : b.stateless) (seen seen' : List BusAccess) (q : BusRequest) :
    b.services seen q = b.services seen' q := by
  unfold Bus.services
  rw [stateless_reply h seen seen' q]
  split
  · rfl
  · rfl
  · rfl
  · exact absurd ‹_› ((h seen' q).2 _)

/-- `s'` is `s` but for the flags in `d` and, where `blind`, for the accesses seen by a bus that takes no notice of
them. -/
def Alike (d : List Flag) (blind : Prop) (s s' : State) : Prop :=
  ∃ p tr, s' = { s with p := p, trace := tr } ∧ SameFlags d s.p p ∧ (tr = s.trace ∨ blind ∧ s.bus.stateless)

section
variable {d : List Flag} {blind : Prop} {s s' : State}

theorem Alike.reply (h : Alike d blind s s') (q : BusRequest) : s'.bus.reply s'.trace q = s.bus.reply s.trace q := by
  obtain ⟨p, tr, rfl, -, rfl | ⟨-, hb⟩⟩ := h
  · rfl
  · exact stateless_reply hb _ _ q

theorem Alike.services (h : Alike d blind s s') (q : BusRequest) : s'.services q = s.services q := by
  obtain ⟨p, tr, rfl, -, rfl | ⟨-, hb⟩⟩ := h
  · rfl
  · exact stateless_services hb _ _ q

theorem Alike.busByte (h : Alike d blind s s') (a : Word) : s'.busByte a = s.busByte a := by
  obtain ⟨p, tr, rfl, -, rfl | ⟨-, hb⟩⟩ := h
  · rfl
  · unfold State.busByte
    rw [stateless_reply hb tr s.trace]
    split
    · rfl
    · rfl
    · rfl
    · exact absurd ‹_› ((hb s.trace _).2 _)

theorem Alike.written (h : Alike d blind s s') (a : Word) (v : Byte) : s'.written a v = s.written a v := by
  unfold State.written
  rw [h.reply]
  obtain ⟨p, tr, rfl, -, -⟩ := h
  rfl

/-- Noting one access more on both sides. -/
theorem Alike.record (h : Alike d blind s s') (k : AccessKind) (a : Word) (v : Byte) :
    Alike d blind (s.record k a v) (s'.record k a v) := by
  obtain ⟨p, tr, rfl, hp, rfl | hb⟩ := h
  · exact ⟨p, _, rfl, hp, .inl rfl⟩
  · exact ⟨p, _, rfl, hp, .inr hb⟩

theorem Alike.setMem (h : Alike d blind s s') (m : Memory) : Alike d blind (s.setMem m) (s'.setMem m) := by
  obtain ⟨p, tr, rfl, hp, ht⟩ := h
  exact ⟨p, tr, rfl, hp, ht⟩

theorem Alike.store (h : Alike d blind s s') (a : Word) (v : Byte) : Alike d blind (s.store a v) (s'.store a v) := by
  rw [State.store, State.store, h.written]
  exact (h.setMem _).record _ _ _

theorem Alike.setA (h : Alike d blind s s') (v : Byte) : Alike d blind (s.setA v) (s'.setA v) := by
  obtain ⟨p, tr, rfl, hp, ht⟩ := h
  exact ⟨p, tr, rfl, hp, ht⟩

theorem Alike.setX (h : Alike d blind s s') (v : Byte) : Alike d blind (s.setX v) (s'.setX v) := by
  obtain ⟨p, tr, rfl, hp, ht⟩ := h
  exact ⟨p, tr, rfl, hp, ht⟩

theorem Alike.setY (h : Alike d blind s s') (v : Byte) : Alike d blind (s.setY v) (s'.setY v) := by
  obtain ⟨p, tr, rfl, hp, ht⟩ := h
  exact ⟨p, tr, rfl, hp, ht⟩

theorem Alike.setSp (h : Alike d blind s s') (v : Byte) : Alike d blind (s.setSp v) (s'.setSp v) := by
  obtain ⟨p, tr, rfl, hp, ht⟩ := h
  exact ⟨p, tr, rfl, hp, ht⟩

theorem Alike.setPc (h : Alike d blind s s') (w : Word) : Alike d blind (s.setPc w) (s'.setPc w) := by
  obtain ⟨p, tr, rfl, hp, ht⟩ := h
  exact ⟨p, tr, rfl, hp, ht⟩

theorem Alike.setRun (h : Alike d blind s s') (r : RunState) : Alike d blind (s.setRun r) (s'.setRun r) := by
  obtain ⟨p, tr, rfl, hp, ht⟩ := h
  exact ⟨p, tr, rfl, hp, ht⟩

theorem Alike.setP (h : Alike d blind s s') {q q' : Byte} (hq : SameFlags d q q') :
    Alike d blind (s.setP q) (s'.setP q') := by
  obtain ⟨p, tr, rfl, -, ht⟩ := h
  exact ⟨q', tr, rfl, hq, ht⟩

theorem Alike.flags (h : Alike d blind s s') : SameFlags d s.p s'.p := by
  obtain ⟨p, tr, rfl, hp, -⟩ := h
  exact hp

theorem Alike.setFlag (h : Alike d blind s s') (f : Flag) (v : Bool) :
    Alike d blind (s.setFlag f v) (s'.setFlag f v) :=
  h.setP (h.flags.putFlag f v)

theorem Alike.setZN (h : Alike d blind s s') (v : Byte) : Alike d blind (s.setZN v) (s'.setZN v) :=
  h.setP (h.flags.zn v)

theorem Alike.a (h : Alike d blind s s') : s'.a = s.a := by obtain ⟨p, tr, rfl, -, -⟩ := h; rfl
theorem Alike.x (h : Alike d blind s s') : s'.x = s.x := by obtain ⟨p, tr, rfl, -, -⟩ := h; rfl
theorem Alike.y (h : Alike d blind s s') : s'.y = s.y := by obtain ⟨p, tr, rfl, -, -⟩ := h; rfl
theorem Alike.sp (h : Alike d blind s s') : s'.sp = s.sp := by obtain ⟨p, tr, rfl, -, -⟩ := h; rfl
theorem Alike.pc (h : Alike d blind s s') : s'.pc = s.pc := by obtain ⟨p, tr, rfl, -, -⟩ := h; rfl
theorem Alike.run (h : Alike d blind s s') : s'.run = s.run := by obtain ⟨p, tr, rfl, -, -⟩ := h; rfl

end

/-- Two operations end alike: the same way, with the same value, in states that are alike. -/
inductive EndAlike (d : List Flag) (blind : Prop) {α : Type} : Res α → Res α → Prop
  | done (v : α) {s s' : State} : Alike d blind s s' → EndAlike d blind (.done v s) (.done v s')
  | raised {s s' : State} : Alike d blind s s' → EndAlike d blind (.raised s) (.raised s')

section
variable {d : List Flag} {blind : Prop} {s s' : State}

theorem EndAlike.bind {α β : Type} {r r' : Res α} {f f' : α → State → Res β} (hr : EndAlike d blind r r')
    (hf : ∀ v t t', Alike d blind t t' → EndAlike d blind (f v t) (f' v t')) :
    EndAlike d blind (r.bind f) (r'.bind f') := by
  cases hr with
  | done v h => exact hf v _ _ h
  | raised h => exact .raised h

theorem EndAlike.outcome {r r' : Res Unit} (h : EndAlike d blind r r') :
    ∃ t t', r.outcome = .next t ∧ r'.outcome = .next t' ∧ Alike d blind t t' := by
  cases h with
  | done v ht => exact ⟨_, _, rfl, rfl, ht⟩
  | raised ht => exact ⟨_, _, rfl, rfl, ht⟩

theorem memRead_alike (opAt a : Word) (h : Alike d blind s s') :
    EndAlike d blind (memRead opAt a s) (memRead opAt a s') := by
  cases hs : s.services (.read a) with
  | true =>
    rw [memRead_serviced hs, memRead_serviced ((h.services _).trans hs), h.busByte]
    exact .done _ (h.record _ _ _)
  | false =>
    rw [memRead_refused hs, memRead_refused ((h.services _).trans hs)]
    exact .raised (h.setRun _)

theorem memWrite_alike (opAt a : Word) (v : Byte) (h : Alike d blind s s') :
    EndAlike d blind (memWrite opAt a v s) (memWrite opAt a v s') := by
  cases hs : s.services (.write a v) with
  | true =>
    rw [memWrite_serviced hs, memWrite_serviced ((h.services _).trans hs)]
    exact .done _ (h.store _ _)
  | false =>
    rw [memWrite_refused hs, memWrite_refused ((h.services _).trans hs)]
    exact .raised (h.setRun _)

theorem fetch8_alike (opAt : Word) (h : Alike d blind s s') :
    EndAlike d blind (fetch8 opAt s) (fetch8 opAt s') := by
  rw [fetch8, fetch8, h.pc]
  refine (memRead_alike opAt s.pc h).bind fun v t t' ht => ?_
  rw [ht.pc]
  exact .done v (ht.setPc _)

theorem push8_alike (opAt : Word) (v : Byte) (h : Alike d blind s s') :
    EndAlike d blind (push8 opAt v s) (push8 opAt v s') := by
  rw [push8, push8, h.sp]
  refine (memWrite_alike opAt _ v h).bind fun _ t t' ht => ?_
  rw [ht.sp]
  exact .done () (ht.setSp _)

theorem pull8_alike (opAt : Word) (h : Alike d blind s s') :
    EndAlike d blind (pull8 opAt s) (pull8 opAt s') := by
  simp only [pull8, h.sp]
  exact memRead_alike opAt _ (h.setSp _)

theorem readPointer_alike (opAt lo hi : Word) (h : Alike d blind s s') :
    EndAlike d blind (readPointer opAt lo hi s) (readPointer opAt lo hi s') :=
  (memRead_alike opAt lo h).bind fun _ _ _ ht => (memRead_alike opAt hi ht).bind fun _ _ _ hu => .done _ hu

theorem resolve_alike (opAt : Word) (m : MemMode) (h : Alike d blind s s') :
    EndAlike d blind (resolve opAt m s) (resolve opAt m s') := by
  cases m with
  | zp | abs => exact .done _ h
  | zpx | abx => simp only [resolve, h.x]; exact .done _ h
  | zpy | aby => simp only [resolve, h.y]; exact .done _ h
  | ind w => exact readPointer_alike opAt _ _ h
  | izx b => simp only [resolve, h.x]; exact readPointer_alike opAt _ _ h
  | izy b =>
    refine (readPointer_alike opAt _ _ h).bind fun base t t' ht => ?_
    rw [ht.y]
    exact .done _ ht

theorem loadOperand_alike (opAt : Word) (src : Src) (h : Alike d blind s s') :
    EndAlike d blind (loadOperand opAt src s) (loadOperand opAt src s') := by
  cases src with
  | imm v => exact .done v h
  | mem m => exact (resolve_alike opAt m h).bind fun ea _ _ ht => memRead_alike opAt ea ht

/-- A one-operand operation reads C of P and no other flag. -/
theorem alter_alike (hc : .c ∉ d) {p p' : Byte} (hp : SameFlags d p p') (m : Mnemonic) (old : Byte) :
    (alter m old p').value = (alter m old p).value ∧ SameFlags d (alter m old p).p (alter m old p').p := by
  cases m with
  | asl | lsr => exact ⟨rfl, (hp.putFlag _ _).zn _⟩
  | rol | ror =>
    simp only [alter, rolOp, rorOp, hp .c hc, true_and]
    exact (hp.putFlag _ _).zn _
  | inc | dec => exact ⟨rfl, hp.zn _⟩
  | _ => exact ⟨rfl, hp⟩

theorem alterA_alike (hc : .c ∉ d) (m : Mnemonic) (h : Alike d blind s s') :
    Alike d blind (alterA (alter m) s) (alterA (alter m) s') := by
  obtain ⟨hv, hp⟩ := alter_alike hc h.flags m s.a
  rw [alterA, alterA, h.a, hv]
  exact (h.setA _).setP hp

theorem branchTo_alike (cond : Bool) (off : Byte) (h : Alike d blind s s') :
    Alike d blind (branchTo cond off s) (branchTo cond off s') := by
  cases cond with
  | true =>
    simp only [branchTo, if_true, h.pc]
    exact h.setPc _
  | false => exact h

/-- What a mnemonic makes of its operand depends on no flag but C, Z, V and N. -/
theorem effect_alike (hd : ∀ f ∈ [Flag.c, .z, .v, .n], f ∉ d) (m : Mnemonic) (v : Byte) (h : Alike d blind s s') :
    Alike d blind (effect m v s) (effect m v s') := by
  have hread : ∀ f ∈ [Flag.c, .z, .v, .n], s'.flag f = s.flag f := fun f hf => h.flags f (hd f hf)
  cases m with
  | adc | sbc =>
    simp only [effect, adcEffect, sbcEffect, h.a, hread .c (by decide)]
    exact (h.setA _).setP (((h.flags.putFlag _ _).putFlag _ _).zn _)
  | and | ora | eor =>
    simp only [effect, andEffect, oraEffect, eorEffect, h.a]
    exact (h.setA _).setZN _
  | cmp | cpx | cpy =>
    simp only [effect, cmpEffect, cpxEffect, cpyEffect, h.a, h.x, h.y]
    exact h.setP ((h.flags.putFlag _ _).zn _)
  | bit =>
    simp only [effect, bitEffect, h.a]
    exact h.setP (((h.flags.putFlag _ _).putFlag _ _).putFlag _ _)
  | lda | pla => exact (h.setA v).setZN v
  | ldx => exact (h.setX v).setZN v
  | ldy => exact (h.setY v).setZN v
  | plp => exact h.setP (.refl d v)
  | asl | lsr | rol | ror => exact alterA_alike (hd .c (by decide)) _ h
  | bpl | bmi => simp only [effect, hread .n (by decide)]; exact branchTo_alike _ v h
  | bvc | bvs => simp only [effect, hread .v (by decide)]; exact branchTo_alike _ v h
  | bcc | bcs => simp only [effect, hread .c (by decide)]; exact branchTo_alike _ v h
  | bne | beq => simp only [effect, hread .z (by decide)]; exact branchTo_alike _ v h
  | clc | sec | cli | sei | cld | sed | clv => exact h.setFlag _ _
  | inx | dex => simp only [effect, h.x]; exact (h.setX _).setZN _
  | iny | dey => simp only [effect, h.y]; exact (h.setY _).setZN _
  | tax => simp only [effect, h.a]; exact (h.setX _).setZN _
  | tay => simp only [effect, h.a]; exact (h.setY _).setZN _
  | txa => simp only [effect, h.x]; exact (h.setA _).setZN _
  | tya => simp only [effect, h.y]; exact (h.setA _).setZN _
  | tsx => simp only [effect, h.sp]; exact (h.setX _).setZN _
  | txs => simp only [effect, h.x]; exact h.setSp _
  | hlt => exact h.setRun _
  | nop | sta | stx | sty | inc | dec | pha | php | jmp | jsr | rts | rti => exact h

/-- The byte a class stores or pushes as it is, not read from the bus: alike states give the same. -/
def ClassBytesAlike (k : OpClass) (s s' : State) : Prop :=
  match k with
  | .write _ reg => reg s' = reg s
  | .push v => v s' = v s
  | _ => True

/-- A class ends alike in states that are alike, when its effect and its operation are. -/
theorem perform_alike {eff : Byte → State → State} {k : OpClass}
    (heff : ∀ v t t', Alike d blind t t' → Alike d blind (eff v t) (eff v t'))
    (hop : ∀ mo op, k = .modify mo op → ∀ old p p', SameFlags d p p' →
      (op old p').value = (op old p).value ∧ SameFlags d (op old p).p (op old p').p)
    (opAt : Word) (h : Alike d blind s s') (hk : ClassBytesAlike k s s') :
    EndAlike d blind (perform opAt eff k s) (perform opAt eff k s') := by
  cases k with
  | read src => exact (loadOperand_alike opAt src h).bind fun v t t' ht => .done () (heff v t t' ht)
  | write m reg =>
    have hk : reg s' = reg s := hk
    simp only [perform, hk]
    exact (resolve_alike opAt m h).bind fun ea _ _ ht => memWrite_alike opAt ea _ ht
  | modify m op =>
    refine (resolve_alike opAt m h).bind fun ea t t' ht => (memRead_alike opAt ea ht).bind fun old u u' hu => ?_
    rw [(hop m op rfl old _ _ hu.flags).1]
    exact (memWrite_alike opAt ea _ hu).bind fun _ q q' hq => .done () (hq.setP (hop m op rfl old _ _ hq.flags).2)
  | jump m => exact (resolve_alike opAt m h).bind fun ea _ _ ht => .done () (ht.setPc ea)
  | push v =>
    have hk : v s' = v s := hk
    simp only [perform, hk]
    exact push8_alike opAt _ h
  | pull => exact (pull8_alike opAt h).bind fun v t t' ht => .done () (heff v t t' ht)
  | call w =>
    simp only [perform, h.pc]
    exact (push8_alike opAt _ h).bind fun _ _ _ ht => (push8_alike opAt _ ht).bind fun _ _ _ hu => .done () (hu.setPc w)
  | ret =>
    exact (pull8_alike opAt h).bind fun lo _ _ ht => (pull8_alike opAt ht).bind fun hi _ _ hu => .done () (hu.setPc _)
  | rti =>
    exact (pull8_alike opAt h).bind fun v _ _ ht => (pull8_alike opAt (ht.setP (.refl d v))).bind fun lo _ _ hu =>
      (pull8_alike opAt hu).bind fun hi _ _ hq => .done () (hq.setPc _)
  | branch | accumulator | implied | noEntry => exact .done () (heff _ _ _ h)

/-- Only PHP stores a byte that depends on P as a whole. -/
theorem classBytes_alike {i : Instr} (hphp : mnemonicOf i = some .php → d = []) (h : Alike d blind s s') :
    ClassBytesAlike (classOf i) s s' := by
  cases i with
  | php =>
    have hp : s'.p = s.p := flags_ext fun f => h.flags f (by rw [hphp rfl]; exact List.not_mem_nil)
    exact congrArg (· ||| Config.phpForce) hp
  | pha | staZp | staZpx | staAbs | staAbx | staAby | staIzx | staIzy => exact h.a
  | stxZp | stxZpy | stxAbs => exact h.x
  | styZp | styZpx | styAbs => exact h.y
  | _ => exact trivial

/-- Every instruction, PHP apart where flags differ, gives alike states from alike states. -/
theorem exec_alike (hd : ∀ f ∈ [Flag.c, .z, .v, .n], f ∉ d) {i : Instr}
    (hphp : mnemonicOf i = some .php → d = []) (h : Alike d blind s s') :
    ∃ t t', exec i s = .next t ∧ exec i s' = .next t' ∧ Alike d blind t t' := by
  obtain ⟨op, rfl⟩ | ⟨m, hm⟩ := illegal_or_mnemonic i
  · refine ⟨_, _, exec_illegal op s, exec_illegal op s', ?_⟩
    rw [State.opAt, State.opAt, h.pc]
    exact h.setRun _
  · have hop : s'.opAt (BitVec.ofNat 16 (lengthOf i)) = s.opAt (BitVec.ofNat 16 (lengthOf i)) := by
      rw [State.opAt, State.opAt, h.pc]
    rw [exec_eq_perform hm, exec_eq_perform hm, hop]
    exact (perform_alike (fun v _ _ ht => effect_alike hd m v ht)
      (fun mo op hk old p p' hp => modify_op_eq hm hk ▸ alter_alike (hd .c (by decide)) hp m old)
      _ h (classBytes_alike hphp h)).outcome

theorem fetch_alike (h : Alike d blind s s') : EndAlike d blind (fetch s) (fetch s') := by
  rw [fetch, fetch, h.pc]
  refine (fetch8_alike s.pc h).bind fun op t t' ht => ?_
  match lookup op with
  | none => exact .done _ ht
  | some (.one i) => exact .done i ht
  | some (.two mk) => exact (fetch8_alike s.pc ht).bind fun b1 _ _ hu => .done (mk b1) hu
  | some (.three mk) =>
    exact (fetch8_alike s.pc ht).bind fun b1 _ _ hu => (fetch8_alike s.pc hu).bind fun b2 _ _ hq => .done _ hq

end

/-- A state with one flag set to a value is the state but for that flag. -/
theorem alike_setFlag (s : State) (f : Flag) (b : Bool) : Alike [f] False s (s.setFlag f b) :=
  ⟨putFlag s.p f b, s.trace, rfl, (SameFlags.refl [f] s.p).write (List.mem_singleton_self f) b, .inl rfl⟩

/-- Where the traces may not differ, states alike but for a flag are one flag write apart. -/
theorem eq_setFlag_of_alike {f : Flag} {s s' : State} (h : Alike [f] False s s') :
    s' = s.setFlag f (getFlag s'.p f) := by
  obtain ⟨p, tr, rfl, hp, rfl | ⟨hb, -⟩⟩ := h
  · have e : p = putFlag s.p f (getFlag p f) := flags_ext fun g => by
      rw [getFlag_putFlag]
      split
      · rw [‹g = f›]
      · exact hp g (by simpa using ‹_›)
    exact congrArg s.setP e
  · exact hb.elim

/-- Settles O46: the flag is not read (`exec_alike`) and not written (`flagFrame`). -/
theorem inertFlags : Obligations.InertFlags := by
  unfold Obligations.InertFlags
  intro i s f b hf hw hphp
  have hd : ∀ g ∈ [Flag.c, .z, .v, .n], g ∉ [f] := by
    intro g hg e
    obtain rfl := List.mem_singleton.mp e
    revert hf hg
    cases g <;> decide
  obtain ⟨t, t', ht, ht', h⟩ := exec_alike hd (fun e => absurd e hphp) (alike_setFlag s f b)
  have hb : getFlag t'.p f = b := (flagFrame i _ t' f ht' hw).trans (getFlag_putFlag_same s.p f b)
  rw [ht, ht', eq_setFlag_of_alike h, hb]
  rfl

/-- States equal but for what a bus that takes no notice of it has seen. -/
theorem alike_of_unseen_eq {s s' : State} (hb : s.bus.stateless) (h : s.unseen = s'.unseen) : Alike [] True s s' :=
  ⟨s.p, s'.trace, congrArg (fun t => { t with trace := s'.trace }) h.symm, .refl [] s.p, .inr ⟨trivial, hb⟩⟩

theorem unseen_eq_of_alike {blind : Prop} {s s' : State} (h : Alike [] blind s s') : s.unseen = s'.unseen := by
  obtain ⟨p, tr, rfl, hp, -⟩ := h
  have e : p = s.p := flags_ext fun f => hp f List.not_mem_nil
  rw [e]
  rfl

/-- Settles O47, by `fetch_alike` and `exec_alike` with no flag that differs. -/
theorem traceInert : Obligations.TraceInert := by
  unfold Obligations.TraceInert
  intro s s' hb hu
  have h := alike_of_unseen_eq hb hu
  unfold step
  rw [h.run]
  split
  · match fetch s, fetch s', fetch_alike h with
    | _, _, .raised ht => exact congrArg Host.Outcome.next (unseen_eq_of_alike ht)
    | _, _, .done i ht =>
      obtain ⟨q, q', hq, hq', hx⟩ := exec_alike (i := i) (fun _ _ => List.not_mem_nil) (fun _ => rfl) ht
      simp only [hq, hq']
      exact congrArg Host.Outcome.next (unseen_eq_of_alike hx)
  · rfl
  · rfl

end Sys2Proof.Proofs
end

section
/-! SUPPORT. `SetZN` (10_state.md R27) and the reset state (10 R31, 70_reset_and_hazards.md R270, R272). -/

namespace Sys2Proof.Proofs

open Sys2Proof.Machine Sys2Proof.Laws

theorem getFlag_zn_z (p v : Byte) : getFlag (zn p v) .z = (v == 0) := by
  simp [getFlag_zn]

theorem getFlag_zn_n (p v : Byte) : getFlag (zn p v) .n = v.getLsbD 7 := by
  simp [getFlag_zn, bit7]

/-- The six flags `SetZN` leaves. -/
theorem getFlag_zn_other (p v : Byte) {f : Flag} (hz : f ≠ .z) (hn : f ≠ .n) : getFlag (zn p v) f = getFlag p f := by
  rw [getFlag_zn, if_neg hn, if_neg hz]

/-- Z and N are never both set: a zero byte has bit 7 clear. -/
theorem not_zn_both (p v : Byte) : ¬(getFlag (zn p v) .z = true ∧ getFlag (zn p v) .n = true) := by
  rw [getFlag_zn_z, getFlag_zn_n]
  rintro ⟨hz, hn⟩
  obtain rfl := beq_iff_eq.mp hz
  exact absurd hn (by decide)

/-- Settles O41, flag by flag. -/
theorem setZnRule : Obligations.SetZnRule := by
  unfold Obligations.SetZnRule
  refine ⟨fun p v => ⟨?_, getFlag_zn_n p v, fun f => getFlag_zn_other p v, not_zn_both p v, fun p' => ?_⟩,
    fun _ _ => rfl, fun p => ?_⟩
  · rw [getFlag_zn_z]
    exact beq_iff_eq
  · simp only [getFlag_zn_z, getFlag_zn_n, and_self]
  · simp only [getFlag_zn_z, getFlag_zn_n]
    decide

/-- Settles O57: the registers as R272 writes them, and the default platform's replies. -/
theorem resetState : Obligations.ResetState := by
  unfold Obligations.ResetState
  exact ⟨fun _ _ => rfl, fun _ _ => rfl, rfl, rfl, fun _ => rfl, reply_flatRam64K⟩

end Sys2Proof.Proofs
end

section
/-! SUPPORT. The machine's invariant (20_memory.md R40, R42, 60_exceptions.md R241, R242): what a fetch and every class
of instruction do to the host's side of a Running state keeps it, and so does the fault a refused access raises. -/

namespace Sys2Proof.Proofs

open Sys2Proof.Machine Sys2Proof.Laws

/-- A serviced write keeps memory in canonical form, whether or not the byte reaches a cell. -/
theorem written_wf {s : State} (h : s.mem.wf = true) (a : Word) (v : Byte) : (s.written a v).wf = true := by
  unfold State.written
  split
  · exact wf_write a v h
  · exact h

/-- The invariant does not look at the registers. -/
theorem SameHost.inv {s t : State} (h : SameHost s t) (hi : s.Inv) : t.Inv where
  wf := h.mem ▸ hi.wf
  truthful r hr := by
    rw [h.bus, h.trace]
    exact hi.truthful r (h.run.symm.trans hr)
  serviced := by rw [h.bus, h.trace]; exact hi.serviced

/-- A truthful fault keeps the invariant. -/
theorem raise_inv {s : State} {r : FaultRecord} (hi : s.Inv) (hr : r.truthful s.bus s.trace) : (s.raise r).Inv where
  wf := hi.wf
  truthful _ h := by cases h; exact hr
  serviced := hi.serviced

/-- A fault raised at a refused access is truthful (60 R242). -/
theorem raise_refused_inv {s : State} {q : BusRequest} (hi : s.Inv) (hq : s.services q = false) (opAt : Word) :
    (s.raise (.addressingFailure q.addr q.kind opAt)).Inv :=
  raise_inv hi ⟨q, rfl, rfl, hq⟩

/-- The halt of a state leaves no fault record to be truthful. -/
theorem halt_inv {s : State} (hi : s.Inv) : (s.setRun .halted).Inv where
  wf := hi.wf
  truthful _ h := nomatch h
  serviced := hi.serviced

theorem servicedEach_serviced {s : State} {q : BusRequest} (hs : s.bus.servicedEach s.trace = true)
    (hq : s.services q = true) : (s.serviced q).bus.servicedEach (s.serviced q).trace = true := by
  cases q with
  | read a => exact Bool.and_eq_true_iff.mpr ⟨hq, hs⟩
  | write a v => exact Bool.and_eq_true_iff.mpr ⟨hq, hs⟩

/-- A serviced access of a Running state keeps the invariant. Of a Faulted state it need not: a bus with a state of its
own may come to service the request on record. -/
theorem serviced_inv {s : State} {q : BusRequest} (hi : s.Inv) (hr : s.run = .running) (hq : s.services q = true) :
    (s.serviced q).Inv where
  wf := by
    cases q with
    | read a => exact hi.wf
    | write a v => exact written_wf hi.wf a v
  truthful r h := by
    have hrun : (s.serviced q).run = .running := (servicedAll_run s [q]).trans hr
    rw [hrun] at h
    cases h
  serviced := servicedEach_serviced hi.serviced hq

theorem servicedAll_inv {s : State} {l : List BusRequest} (hi : s.Inv) (hr : s.run = .running)
    (hl : s.servicesAll l = true) : (s.servicedAll l).Inv := by
  induction l generalizing s with
  | nil => exact hi
  | cons q l ih =>
    obtain ⟨hq, hl⟩ := Bool.and_eq_true_iff.mp hl
    exact ih (serviced_inv hi hr hq) ((servicedAll_run s [q]).trans hr) hl

/-- An operation that makes its accesses up to the first refused one keeps the invariant, done or raised. -/
theorem Makes.inv {α : Type} {opAt : Word} {s : State} {l : List BusRequest} {r : Res α} (h : Makes opAt s l r)
    (hi : s.Inv) (hr : s.run = .running) : (endOf r).Inv := by
  cases r with
  | done v t =>
    obtain ⟨hs, ht⟩ := h
    exact ht.inv (servicedAll_inv hi hr hs)
  | raised t =>
    obtain ⟨pre, q, post, -, hs, hq, ht⟩ := h
    exact ht.inv (raise_refused_inv (servicedAll_inv hi hr hs) hq opAt)

/-- Every well-formed instruction executed in a Running state keeps the invariant. -/
theorem exec_inv {i : Instr} {s t : State} (hw : wellFormed i = true) (hi : s.Inv) (hr : s.run = .running)
    (h : exec i s = .next t) : t.Inv := by
  obtain ⟨op, rfl⟩ | ⟨m, hm⟩ := illegal_or_mnemonic i
  · cases (exec_illegal op s).symm.trans h
    exact raise_inv hi hw
  by_cases hh : m = .hlt
  · subst hh
    obtain rfl := eq_hlt_of_mnemonic hm
    cases (exec_hlt s).symm.trans h
    exact halt_inv hi
  obtain ⟨r, hx, hmk⟩ := exec_makes hm hh s
  rw [hx, outcome_eq_next] at h
  cases h
  exact hmk.inv hi hr

/-- Fetched bytes are serviced reads, with PC moved past them. -/
theorem afterFetch_inv {s : State} {n : Nat} (hi : s.Inv) (hr : s.run = .running) (hs : s.servicesFetch n = true) :
    (s.afterFetch n).Inv := by
  induction n generalizing s with
  | zero => exact hi
  | succ n ih =>
    obtain ⟨hq, hs⟩ := Bool.and_eq_true_iff.mp hs
    have hb : SameHost (s.serviced (.read s.pc)) s.afterByte := .setPc _ _
    exact ih (hb.inv (serviced_inv hi hr hq)) hr hs

/-- Settles O9: the bytes fetched keep the invariant, and then the instruction or the refused fetch does. -/
theorem stepKeepsInvariant : Obligations.StepKeepsInvariant := by
  unfold Obligations.StepKeepsInvariant
  intro s t hi hst
  have hr := running_of_step_next hst
  obtain ⟨i, rest, -, hw, ⟨hs, hf⟩ | ⟨n, -, hs, hq, hf⟩⟩ := fetch_cases s
  · rw [step_of_fetched hr hf] at hst
    exact exec_inv hw (afterFetch_inv hi hr hs) ((afterFetch_run s _).trans hr) hst
  · rw [step_of_refused hr hf] at hst
    cases hst
    exact raise_refused_inv (afterFetch_inv hi hr hs) hq s.pc

end Sys2Proof.Proofs
end

section
/-! SUPPORT. Plain memory (20_memory.md R47, R52): it services every request, and what is stored in it is what a read
gives. -/

namespace Sys2Proof.Proofs

open Sys2Proof.Machine Sys2Proof.Laws

/-- Plain memory services every request for its address, whatever the bus has seen. -/
theorem services_of_plainAt {s : State} {q : BusRequest} (h : s.bus.plainAt q.addr) : s.services q = true :=
  services_of_memory (h s.trace q rfl)

/-- A read after a store to plain memory gives the byte stored (20 R52). -/
theorem store_busByte_of_plainAt {s : State} {a : Word} (h : s.bus.plainAt a) (v : Byte) :
    (s.store a v).busByte a = v := by
  have hread : (s.store a v).bus.reply (s.store a v).trace (.read a) = .memory := h _ _ rfl
  have hwrite : s.bus.reply s.trace (.write a v) = .memory := h _ _ rfl
  rw [busByte_memory hread, store_mem, written_memory hwrite, read_write_same]

/-- STA to plain memory (45 R203). -/
theorem exec_staAbs_of_plainAt {s : State} {w : Word} (h : s.bus.plainAt w) :
    exec (.staAbs w) s = .next (s.store w s.a) :=
  writeClass_serviced rfl (services_of_plainAt h)

/-- LDA from plain memory (45 R200). -/
theorem exec_ldaAbs_of_plainAt {s : State} {w : Word} (h : s.bus.plainAt w) :
    exec (.ldaAbs w) s = .next (ldaEffect (s.busByte w) (s.record .read w (s.busByte w))) :=
  readClass_serviced (Bool.and_eq_true_iff.mpr ⟨services_of_plainAt h, rfl⟩)

/-- A fetch at an address in plain memory reads the byte there (40 R101). -/
theorem fetch8_of_plainAt {s : State} {w : Word} (h : s.bus.plainAt w) (opAt : Word) :
    fetch8 opAt (s.setPc w) = .done (s.busByte w) (s.setPc w).afterByte :=
  fetch8_serviced (s := s.setPc w) (services_of_plainAt h)

/-- Settles O56: the load and the fetch read the byte the store left in plain memory. -/
theorem storeThenLoad : Obligations.StoreThenLoad := by
  unfold Obligations.StoreThenLoad
  intro w s v h
  have hb : (s.store w s.a).busByte w = s.a := store_busByte_of_plainAt h s.a
  have ht : (s.store w s.a).bus.plainAt w := h
  refine ⟨_, _, exec_staAbs_of_plainAt h, exec_ldaAbs_of_plainAt ht, hb, fun opAt =>
    ⟨((s.store w s.a).setPc w).afterByte, ?_⟩⟩
  rw [fetch8_of_plainAt ht, hb]

end Sys2Proof.Proofs
end

section
/-! SUPPORT. The opcode map is onto the well-formed instructions, and decoding undoes encoding and is undone by it
(30_encoding.md R70 to R76, R79). -/

namespace Sys2Proof.Proofs

open Sys2Proof.Machine Sys2Proof.Laws

/-- No byte of 30 R76's list has an entry in the grid of R75. -/
theorem lookup_isNone_of_listed : ∀ n ∈ undocumented, (lookup (BitVec.ofNat 8 n)).isNone = true := by decide

theorem isUndocumented_iff (op : Byte) : isUndocumented op = true ↔ op.toNat ∈ undocumented :=
  List.contains_iff_mem

/-- The grid of 30 R75 leaves out the bytes of R76's list and no others. -/
theorem lookup_eq_none_iff (op : Byte) : lookup op = none ↔ isUndocumented op = true := by
  constructor
  · intro h
    have he := lookup_entry op
    rwa [h] at he
  · intro h
    have hn := lookup_isNone_of_listed op.toNat ((isUndocumented_iff op).mp h)
    rw [BitVec.ofNat_toNat, BitVec.setWidth_eq] at hn
    exact Option.isNone_iff_eq_none.mp hn

/-- A byte with no entry is an instruction by itself (30 R76). -/
theorem decode_illegal {op : Byte} (h : isUndocumented op = true) (rest : List Byte) :
    decode (op :: rest) = .ok (.illegal op, rest) := by
  rw [decode_cons, (lookup_eq_none_iff op).mpr h]

/-- What the opcode map holds is the instruction, once its operand bytes are filled in (30 R71). -/
def Yields (i : Instr) : Option Form → Prop
  | none => .illegal (opcodeOf i) = i ∧ operandBytes i = []
  | some (.one j) => j = i ∧ operandBytes i = []
  | some (.two mk) => ∃ b, mk b = i ∧ operandBytes i = [b]
  | some (.three mk) => ∃ w, mk w = i ∧ operandBytes i = [lo8 w, hi8 w]

/-- Every well-formed instruction is found in the opcode map under its own byte: the instructions of layout L1, and
those that wait for an operand (30 R71). Once the opcode is a numeral, its place in the grid evaluates. -/
theorem lookup_opcodeOf {i : Instr} (h : wellFormed i = true) : Yields i (lookup (opcodeOf i)) := by
  cases i with
  | illegal op =>
    have hn : lookup (opcodeOf (.illegal op)) = none := (lookup_eq_none_iff op).mpr h
    rw [hn]
    exact ⟨rfl, rfl⟩
  | aslAcc | lsrAcc | rolAcc | rorAcc | clc | cld | cli | clv | sec | sed | sei | dex | dey | inx | iny
  | tax | tay | tsx | txa | txs | tya | pha | php | pla | plp | rti | rts | hlt | nop => exact ⟨rfl, rfl⟩
  | _ =>
    dsimp only [opcodeOf]
    exact ⟨_, rfl, rfl⟩

/-- Settles O1, by the entry under the instruction's byte; a 16-bit operand is put together again from its bytes. -/
theorem decodeOfEncode : Obligations.DecodeOfEncode := by
  unfold Obligations.DecodeOfEncode
  intro i rest hw
  have hy := lookup_opcodeOf hw
  rw [encode, List.cons_append, decode_cons]
  match lookup (opcodeOf i), hy with
  | none, ⟨hi, hb⟩ => simp [hb, hi]
  | some (.one j), ⟨hj, hb⟩ => simp [hb, hj]
  | some (.two mk), ⟨b, hmk, hb⟩ => simp [hb, hmk]
  | some (.three mk), ⟨w, hmk, hb⟩ => simp [hb, hmk]

/-- Settles O2: whatever entry the first byte has, what it builds is encoded by the bytes it took. -/
theorem encodeOfDecode : Obligations.EncodeOfDecode := by
  unfold Obligations.EncodeOfDecode
  intro l rest i h
  cases l with
  | nil => cases h
  | cons op tail =>
    have he := lookup_entry op
    rw [decode_cons] at h
    match lookup op, tail, he, h with
    | none, _, he, rfl => exact ⟨he, rfl⟩
    | some (.one _), _, ⟨henc, _, hw⟩, rfl => exact ⟨hw, by rw [henc]; rfl⟩
    | some (.two _), b :: _, he, rfl =>
      obtain ⟨henc, -, hw⟩ := he b
      exact ⟨hw, by rw [henc]; rfl⟩
    | some (.three _), b1 :: b2 :: _, he, rfl =>
      obtain ⟨henc, -, hw⟩ := he (wordOf b2 b1)
      exact ⟨hw, by simp [henc]⟩

/-- The opcode byte followed by zeros decodes to an instruction of the same mode, mnemonic and length: these do not
depend on the operand (30 R73). -/
theorem decode_opcodeOf_zeros {i : Instr} (h : wellFormed i = true) :
    ∃ k rest, decode [opcodeOf i, 0, 0] = .ok (k, rest) ∧
      modeOf i = modeOf k ∧ mnemonicOf i = mnemonicOf k ∧ lengthOf i = lengthOf k := by
  cases i with
  | illegal op => exact ⟨_, _, decode_illegal h [0, 0], rfl, rfl, rfl⟩
  | _ =>
    dsimp only [opcodeOf]
    exact ⟨_, _, rfl, rfl, rfl, rfl⟩

/-- As many bytes are encoded as are counted. -/
theorem length_encode (i : Instr) : (encode i).length = lengthOf i := by
  cases i <;> rfl

theorem lengthOf_of_mode {i : Instr} {m : Mode} (h : modeOf i = some m) : lengthOf i = 1 + operandCount m := by
  rw [lengthOf, h]

theorem lengthOf_of_no_mode {i : Instr} (h : modeOf i = none) : lengthOf i = 1 := by
  rw [lengthOf, h]

/-- Settles O4: instructions with one opcode byte are compared with what that byte and zeros decode to. -/
theorem lengthFixedByOpcode : Obligations.LengthFixedByOpcode := by
  unfold Obligations.LengthFixedByOpcode
  refine ⟨fun i j hi hj hop => ?_,
    fun i => ⟨length_encode i, fun _ => lengthOf_of_mode, lengthOf_of_no_mode⟩⟩
  obtain ⟨k, rest, hk, him, hin, hil⟩ := decode_opcodeOf_zeros hi
  obtain ⟨k', rest', hk', hjm, hjn, hjl⟩ := decode_opcodeOf_zeros hj
  rw [← hop, hk] at hk'
  cases hk'
  exact ⟨him.trans hjm.symm, hin.trans hjn.symm, hil.trans hjl.symm⟩

/-- Settles O3: the grid of R75 against the list of R76, in both directions. -/
theorem noEntryExactlyUndocumented : Obligations.NoEntryExactlyUndocumented := by
  unfold Obligations.NoEntryExactlyUndocumented
  exact ⟨fun op => (lookup_eq_none_iff op).trans (isUndocumented_iff op), rfl, fun _ rest h => decode_illegal h rest⟩

/-- Settles O5: the decoder evaluated on each word. -/
theorem someWordsDecode : Obligations.SomeWordsDecode := by
  unfold Obligations.SomeWordsDecode
  exact ⟨rfl, rfl, rfl, rfl, rfl, rfl, rfl, rfl, rfl, rfl, rfl, rfl, rfl⟩

end Sys2Proof.Proofs
end

section
/-! SUPPORT. A step and a run (40_execution_and_addressing.md R100, R101, R119, R120): the bytes fetched as reads in
address order, the refused fetch, and stepping until the run has ended. -/

namespace Sys2Proof.Proofs

open Sys2Proof.Machine Sys2Proof.Laws

/-- Every instruction gives a next state: a byte with no entry by its own arm, the others by their class. -/
theorem exec_next (i : Instr) (s : State) : ∃ t, exec i s = .next t := by
  obtain ⟨op, rfl⟩ | ⟨m, hm⟩ := illegal_or_mnemonic i
  · exact ⟨_, exec_illegal op s⟩
  · rw [exec_eq_perform hm]
    exact outcome_next _

/-- A Running state has a next state, whether its fetch is done or refused. -/
theorem step_next_of_running {s : State} (hs : s.run = .running) : ∃ t, step s = .next t := by
  cases hf : fetch s with
  | done i t =>
    rw [step_of_fetched hs hf]
    exact exec_next i t
  | raised t => exact ⟨t, step_of_refused hs hf⟩

theorem step_of_halted {s : State} (hs : s.run = .halted) : step s = .fault .haltedHasNoStep := by
  rw [step, hs]

theorem step_of_faulted {s : State} {r : FaultRecord} (hs : s.run = .faulted r) :
    step s = .fault (.faultedHasNoStep r) := by
  rw [step, hs]

/-- Settles O8, by the three run states. -/
theorem stepExactlyWhenRunning : Obligations.StepExactlyWhenRunning := by
  unfold Obligations.StepExactlyWhenRunning
  exact fun _ => ⟨step_next_of_running, step_of_halted, fun _ => step_of_faulted⟩

/-- Settles O7: the fetch raises at the refused byte, and the step ends there. -/
theorem stepFaultsAtRefusedFetch : Obligations.StepFaultsAtRefusedFetch := by
  unfold Obligations.StepFaultsAtRefusedFetch
  intro s i rest n hrun hd hn hs hr
  exact step_of_refused hrun (fetch_refused hd hn hs hr)

/-- Where PC stands does not matter to reads. -/
theorem recordReads_setPc (s : State) (w : Word) (l : List Word) :
    (s.setPc w).recordReads l = (s.recordReads l).setPc w := by
  induction l generalizing s with
  | nil => rfl
  | cons a l ih => exact ih (s.record .read a (s.busByte a))

/-- Fetching notes the reads of the instruction's bytes in address order and moves PC past them (40 R101, R118). -/
theorem afterFetch_eq_recordReads (s : State) (n : Nat) :
    s.afterFetch n = (s.recordReads (fetches s.pc n)).setPc (s.pc + BitVec.ofNat 16 n) := by
  induction n generalizing s with
  | zero => simp [State.afterFetch, fetches, State.setPc]
  | succ n ih =>
    have hpc : s.pc + 1 + BitVec.ofNat 16 n = s.pc + BitVec.ofNat 16 (n + 1) := by
      rw [BitVec.add_assoc, Nat.add_comm n 1, BitVec.ofNat_add]
      rfl
    rw [State.afterFetch, ih, State.afterByte, recordReads_setPc, fetches_succ, recordReads_cons, ← hpc]
    rfl

/-- Settles O6: the fetch is done, and `exec` goes on from the state it leaves. -/
theorem stepRunsDecoded : Obligations.StepRunsDecoded := by
  unfold Obligations.StepRunsDecoded
  intro s i rest hrun hd hs
  exact ⟨step_of_fetched hrun (fetch_serviced hd hs), afterFetch_eq_recordReads s _, afterFetch_eq s _⟩

theorem ended_iff (s : State) : s.ended = true ↔ s.run ≠ .running := bne_iff_ne

theorem succeeded_iff (s : State) : s.succeeded = true ↔ s.run = .halted := beq_iff_eq

/-- An ended state has no step. -/
theorem step_fault_of_ended {s : State} (h : s.ended = true) : ∃ r, step s = .fault r := by
  cases hr : s.run with
  | running => exact absurd hr ((ended_iff s).mp h)
  | halted => exact ⟨_, step_of_halted hr⟩
  | faulted r => exact ⟨_, step_of_faulted hr⟩

/-- An ended run stays as it is, whatever the fuel. -/
theorem runFor_of_ended {s : State} (h : s.ended = true) (n : Nat) : s.runFor n = s := by
  cases n with
  | zero => rfl
  | succ n =>
    obtain ⟨r, hr⟩ := step_fault_of_ended h
    rw [State.runFor, hr]

/-- One unit of fuel is one step. -/
theorem runFor_succ_of_step {s t : State} (h : step s = .next t) (n : Nat) : s.runFor (n + 1) = t.runFor n := by
  rw [State.runFor, h]

/-- Fuel adds up. -/
theorem runFor_add (s : State) (n m : Nat) : s.runFor (n + m) = (s.runFor n).runFor m := by
  induction n generalizing s with
  | zero => rw [Nat.zero_add]; rfl
  | succ n ih =>
    by_cases hs : s.run = .running
    · obtain ⟨t, ht⟩ := step_next_of_running hs
      rw [Nat.add_right_comm, runFor_succ_of_step ht, runFor_succ_of_step ht, ih]
    · have he := (ended_iff s).mpr hs
      rw [runFor_of_ended he, runFor_of_ended he, runFor_of_ended he]

/-- Settles O59, by `runFor_of_ended` and `runFor_add`. -/
theorem runStopsAtEnd : Obligations.RunStopsAtEnd := by
  unfold Obligations.RunStopsAtEnd
  intro s n m
  refine ⟨fun h => runFor_of_ended h n, runFor_add s n m, fun hs => ?_, succeeded_iff s, ended_iff s⟩
  obtain ⟨t, ht⟩ := step_next_of_running hs
  rw [runFor_succ_of_step ht]
  exact ht

end Sys2Proof.Proofs
end

section
/-! SUPPORT. What serviced accesses leave of the host's side of the state, and that an instruction's accesses are all
it does there (40_execution_and_addressing.md R117, R118, 20_memory.md R46). -/

namespace Sys2Proof.Proofs

open Sys2Proof.Machine Sys2Proof.Laws

/-- A byte with no entry, HLT, or an operation that makes the instruction's accesses and changes registers. -/
theorem exec_cases (i : Instr) (s : State) : (∃ op, i = .illegal op) ∨ i = .hlt ∨
    ∃ r : Res Unit, exec i s = r.outcome ∧ Makes (s.pc - BitVec.ofNat 16 (lengthOf i)) s (accesses i s) r := by
  obtain h | ⟨m, hm⟩ := illegal_or_mnemonic i
  · exact .inl h
  · by_cases hh : m = .hlt
    · exact .inr (.inl (eq_hlt_of_mnemonic (hh ▸ hm)))
    · exact .inr (.inr (exec_makes hm hh s))

theorem servicedAll_bus (s : State) (l : List BusRequest) : (s.servicedAll l).bus = s.bus := by
  induction l generalizing s with
  | nil => rfl
  | cons q l ih => rw [servicedAll_cons, ih]; cases q <;> rfl

/-- A serviced access is noted in front of what the bus had seen. -/
theorem serviced_trace (s : State) (q : BusRequest) :
    ∃ c : BusAccess, c.request = q ∧ (s.serviced q).trace = c :: s.trace := by
  cases q with
  | read a => exact ⟨_, rfl, rfl⟩
  | write a v => exact ⟨_, rfl, rfl⟩

theorem serviced_seen (s : State) (q : BusRequest) : (s.serviced q).seen = s.seen ++ [q] := by
  obtain ⟨c, hc, ht⟩ := serviced_trace s q
  simp [State.seen, ht, hc]

/-- The bus has seen the accesses it serviced after what it had seen, in their order. -/
theorem servicedAll_seen (s : State) (l : List BusRequest) : (s.servicedAll l).seen = s.seen ++ l := by
  induction l generalizing s with
  | nil => exact (List.append_nil _).symm
  | cons q l ih => rw [servicedAll_cons, ih, serviced_seen, List.append_assoc]; rfl

/-- What the bus had seen stays seen. -/
theorem trace_suffix_servicedAll (s : State) (l : List BusRequest) : s.trace <:+ (s.servicedAll l).trace := by
  induction l generalizing s with
  | nil => exact List.suffix_rfl
  | cons q l ih =>
    obtain ⟨c, -, hc⟩ := serviced_trace s q
    exact (hc ▸ List.suffix_cons c s.trace).trans (ih (s.serviced q))

/-- A serviced write changes the byte at its address at most. -/
theorem written_read_other {s : State} {a b : Word} (v : Byte) (h : b ≠ a) :
    (s.written a v).read b = s.mem.read b := by
  unfold State.written
  split
  · exact read_write_other s.mem v h
  · rfl

/-- Serviced accesses leave every byte that none of them writes. -/
theorem servicedAll_mem_read {s : State} {l : List BusRequest} {a : Word}
    (h : ∀ q ∈ l, q.kind = .write → a ≠ q.addr) : (s.servicedAll l).mem.read a = s.mem.read a := by
  induction l generalizing s with
  | nil => rfl
  | cons q l ih =>
    rw [servicedAll_cons, ih fun r hr => h r (List.mem_cons_of_mem q hr)]
    cases q with
    | read b => rfl
    | write b v => exact written_read_other v (h _ List.mem_cons_self rfl)

theorem SameHost.seen {s t : State} (h : SameHost s t) : t.seen = s.seen := by
  simp only [State.seen, h.trace]

/-- Outside the addresses of the writes in `l`, `t` has the memory of `s`; it has its bus, and has seen all it had. -/
structure HostFrame (l : List BusRequest) (s t : State) : Prop where
  mem : ∀ a, (∀ q ∈ l, q.kind = .write → a ≠ q.addr) → t.mem.read a = s.mem.read a
  bus : t.bus = s.bus
  trace : s.trace <:+ t.trace

theorem HostFrame.refl (l : List BusRequest) (s : State) : HostFrame l s s := ⟨fun _ _ => rfl, rfl, List.suffix_rfl⟩

/-- Serviced accesses, up to a change of registers, when all of them are in the list. -/
theorem HostFrame.of_servicedAll {l k : List BusRequest} {s t : State} (hk : k ⊆ l)
    (ht : SameHost (s.servicedAll k) t) : HostFrame l s t where
  mem a ha := by rw [ht.mem, servicedAll_mem_read fun q hq => ha q (hk hq)]
  bus := ht.bus.trans (servicedAll_bus s k)
  trace := ht.trace ▸ trace_suffix_servicedAll s k

theorem HostFrame.setRun {l : List BusRequest} {s t : State} (h : HostFrame l s t) (r : RunState) :
    HostFrame l s (t.setRun r) := { h with }

/-- An operation leaves what its accesses leave, done or raised. -/
theorem Makes.hostFrame {α : Type} {opAt : Word} {s : State} {l : List BusRequest} {r : Res α}
    (h : Makes opAt s l r) : HostFrame l s (endOf r) := by
  cases r with
  | done v t => exact .of_servicedAll (List.Subset.refl l) h.2
  | raised t =>
    obtain ⟨pre, q, post, rfl, -, -, ht⟩ := h
    have hpre : HostFrame (pre ++ q :: post) s (s.servicedAll pre) :=
      .of_servicedAll (List.subset_append_left _ _) (.refl _)
    exact ⟨fun a ha => ht.mem ▸ hpre.mem a ha, ht.bus.trans hpre.bus, ht.trace ▸ hpre.trace⟩

/-- Every instruction leaves what its accesses leave. -/
theorem exec_hostFrame {i : Instr} {s t : State} (h : exec i s = .next t) : HostFrame (accesses i s) s t := by
  obtain ⟨op, rfl⟩ | rfl | ⟨r, hx, hmk⟩ := exec_cases i s
  · cases (exec_illegal op s).symm.trans h
    exact (HostFrame.refl _ s).setRun _
  · cases (exec_hlt s).symm.trans h
    exact (HostFrame.refl _ s).setRun _
  · rw [hx, outcome_eq_next] at h
    cases h
    exact hmk.hostFrame

theorem mem_storesTo_of_write {i : Instr} {s : State} {q : BusRequest} (hq : q ∈ accesses i s)
    (hk : q.kind = .write) : q.addr ∈ storesTo i s :=
  List.mem_map_of_mem (List.mem_filter.mpr ⟨hq, beq_iff_eq.mpr hk⟩)

/-- Settles O19: the addresses an instruction stores to are those of the writes among its accesses. -/
theorem memoryAndBusFrame : Obligations.MemoryAndBusFrame := by
  unfold Obligations.MemoryAndBusFrame
  intro i s t h
  obtain ⟨hmem, hbus, k, hk⟩ := exec_hostFrame h
  exact ⟨fun a ha => hmem a fun q hq hw e => ha (e ▸ mem_storesTo_of_write hq hw), hbus, k, hk.symm⟩

/-- An operation whose accesses are all serviced is done. -/
theorem Makes.done_of_servicesAll {α : Type} {opAt : Word} {s : State} {l : List BusRequest} {r : Res α}
    (h : Makes opAt s l r) (hl : s.servicesAll l = true) : ∃ v t, r = .done v t ∧ SameHost (s.servicedAll l) t := by
  cases r with
  | done v t => exact ⟨v, t, rfl, h.2⟩
  | raised t =>
    obtain ⟨pre, q, post, rfl, -, hq, -⟩ := h
    rw [servicesAll_append, servicesAll_cons, hq, Bool.false_and, Bool.and_false] at hl
    cases hl

/-- When the bus services an instruction's accesses, it has seen them and nothing else, and the run state changes by
HLT and by a byte with no entry only. -/
theorem exec_of_servicesAll {i : Instr} {s : State} (hl : s.servicesAll (accesses i s) = true) :
    ∃ t, exec i s = .next t ∧ (t.run = s.run ∨ (i = .hlt ∧ t.run = .halted) ∨ ∃ op, i = .illegal op) ∧
      t.seen = s.seen ++ accesses i s := by
  obtain ⟨op, rfl⟩ | rfl | ⟨r, hx, hmk⟩ := exec_cases i s
  · exact ⟨_, exec_illegal op s, .inr (.inr ⟨op, rfl⟩), (List.append_nil _).symm⟩
  · exact ⟨_, exec_hlt s, .inr (.inl ⟨rfl, rfl⟩), (List.append_nil _).symm⟩
  · obtain ⟨_, t, rfl, ht⟩ := hmk.done_of_servicesAll hl
    exact ⟨t, hx, .inl (ht.run.trans (servicedAll_run s _)), ht.seen.trans (servicedAll_seen s _)⟩

/-- The bus has seen the fetches of the instruction's bytes, in address order. -/
theorem afterFetch_seen (s : State) (n : Nat) : (s.afterFetch n).seen = s.seen ++ (fetches s.pc n).map .read := by
  rw [afterFetch_eq_recordReads, ← servicedAll_reads]
  exact servicedAll_seen s _

/-- Settles O15: the fetches, and then the accesses of the instruction's row. -/
theorem accessSequence : Obligations.AccessSequence := by
  unfold Obligations.AccessSequence
  intro s i rest hrun hd hs hl
  obtain ⟨t, ht, hr, hseen⟩ := exec_of_servicesAll hl
  refine ⟨t, (step_of_fetched hrun (fetch_serviced hd hs)).trans ht, ?_, by rw [hseen, afterFetch_seen]⟩
  rwa [afterFetch_run, hrun] at hr

end Sys2Proof.Proofs
end

section
/-! SUPPORT. Effective addresses as numbers (40_execution_and_addressing.md R107 to R115). -/

namespace Sys2Proof.Proofs

open Sys2Proof.Machine Sys2Proof.Laws Sys2Proof.Claims

theorem toNat_zeroPage (b : Byte) : (zeroPage b).toNat = b.toNat := by
  rw [zeroPage, toNat_wordOf]
  exact (congrArg (· + b.toNat) (Nat.zero_mul 256)).trans (Nat.zero_add _)

/-- A page 0 address is known by its number. -/
theorem eq_zeroPage {w : Word} {b : Byte} (h : w.toNat = b.toNat) : w = zeroPage b :=
  BitVec.eq_of_toNat_eq (h.trans (toNat_zeroPage b).symm)

theorem toNat_zeroPage_add (b x : Byte) : (zeroPage (b + x)).toNat = (b.toNat + x.toNat) % 256 := by
  rw [toNat_zeroPage, BitVec.toNat_add]

theorem toNat_add_zext16 (w : Word) (x : Byte) : (w + zext16 x).toNat = (w.toNat + x.toNat) % 65536 := by
  have hx : x.toNat < 65536 := by have := x.isLt; omega
  rw [BitVec.toNat_add, zext16, BitVec.toNat_setWidth, Nat.mod_eq_of_lt hx]

/-- Settles O48: these modes are done at once, and `toNat_zeroPage_add` and `toNat_add_zext16` give the sums. -/
theorem addressArithmetic : Obligations.AddressArithmetic := by
  unfold Obligations.AddressArithmetic
  exact fun _ w b s => ⟨⟨_, rfl, toNat_zeroPage b⟩, ⟨_, rfl, toNat_zeroPage_add b s.x⟩,
    ⟨_, rfl, toNat_zeroPage_add b s.y⟩, ⟨_, rfl, rfl⟩, ⟨_, rfl, toNat_add_zext16 w s.x⟩,
    ⟨_, rfl, toNat_add_zext16 w s.y⟩⟩

/-- The word behind a pointer is little-endian (20 R43). -/
theorem toNat_pointer (s : State) (lo hi : Word) :
    (s.pointer lo hi).toNat = (s.busByte lo).toNat + 256 * ((s.recordReads [lo]).busByte hi).toNat := by
  rw [State.pointer, toNat_wordOf]
  omega

/-- The next word address in the same page. -/
theorem toNat_next_in_page (w : Word) :
    (wordOf (hi8 w) (lo8 w + 1)).toNat = w.toNat / 256 * 256 + (w.toNat + 1) % 256 := by
  rw [toNat_wordOf, toNat_hi8, BitVec.toNat_add, toNat_lo8]
  have h1 : (1 : Byte).toNat = 1 := rfl
  omega

/-- Settles O49: the two addresses are the resolver's pointer reads, by their numbers. -/
theorem pointerArithmetic : Obligations.PointerArithmetic := by
  unfold Obligations.PointerArithmetic
  refine fun opAt w b s => ⟨fun lo hi hlo hhi hs => ?_, fun lo hi hlo hhi hs => ?_, fun hi hhi hs => ?_⟩
  · obtain rfl : lo = zeroPage (b + s.x) := eq_zeroPage hlo
    obtain rfl : hi = zeroPage (b + s.x + 1) := eq_zeroPage (by rw [hhi]; simp)
    exact ⟨_, resolve_serviced (m := .izx b) hs, toNat_pointer s _ _⟩
  · obtain rfl : lo = zeroPage b := eq_zeroPage hlo
    obtain rfl : hi = zeroPage (b + 1) := eq_zeroPage hhi
    refine ⟨_, resolve_serviced (m := .izy b) hs, ?_⟩
    rw [MemMode.ea, toNat_add_zext16, toNat_pointer]
  · obtain rfl : hi = wordOf (hi8 w) (lo8 w + 1) :=
      BitVec.eq_of_toNat_eq (hhi.trans (toNat_next_in_page w).symm)
    exact ⟨_, resolve_serviced (m := .ind w) hs, toNat_pointer s _ _⟩

end Sys2Proof.Proofs
end

section
/-! SUPPORT. Bytes placed where the machine fetches next are the bytes it fetches (20_memory.md R55,
40_execution_and_addressing.md R100). -/

namespace Sys2Proof.Proofs

open Sys2Proof.Machine Sys2Proof.Laws

/-- Memory holds the byte at the address, and plain memory serves every read of it. -/
def Holds (m : Memory) (b : Bus) (a : Word) (v : Byte) : Prop := b.readsMemory a = true ∧ m.read a = v

/-- The bytes are held from the address on. -/
def HoldsFrom (m : Memory) (b : Bus) : Word → List Byte → Prop
  | _, [] => True
  | a, v :: l => Holds m b a v ∧ HoldsFrom m b (a + 1) l

/-- Bytes held from PC on are the instruction stream. -/
theorem stream_of_holdsFrom {s : State} {l : List Byte} (h : HoldsFrom s.mem s.bus s.pc l) :
    s.stream l.length = l := by
  induction l generalizing s with
  | nil => rfl
  | cons v l ih =>
    obtain ⟨⟨hr, hv⟩, hl⟩ := h
    rw [List.length_cons, State.stream, busByte_memory (reply_of_readsMemory hr _), hv]
    exact congrArg _ (ih (s := s.afterByte) hl)

/-- Bytes held from PC on can be fetched. -/
theorem servicesFetch_of_holdsFrom {s : State} {l : List Byte} (h : HoldsFrom s.mem s.bus s.pc l) {n : Nat}
    (hn : n ≤ l.length) : s.servicesFetch n = true := by
  induction n generalizing s l with
  | zero => rfl
  | succ n ih =>
    cases l with
    | nil => exact absurd hn (Nat.not_succ_le_zero n)
    | cons v l =>
      obtain ⟨⟨hr, -⟩, hl⟩ := h
      exact Bool.and_eq_true_iff.mpr ⟨services_of_memory (reply_of_readsMemory hr _),
        ih (s := s.afterByte) hl (Nat.le_of_succ_le_succ hn)⟩

/-- A byte placed at an address is held there. -/
theorem holds_placed (m : Memory) (b : Bus) (a : Word) (v : Byte) : Holds (m.write a v) (b.openForRead a) a v :=
  ⟨readsMemory_openForRead b a, read_write_same m a v⟩

/-- A byte placed elsewhere leaves what is held. -/
theorem Holds.placed_other {m : Memory} {b : Bus} {a c : Word} {u : Byte} (h : Holds m b c u) (hc : c ≠ a)
    (v : Byte) : Holds (m.write a v) (b.openForRead a) c u :=
  ⟨readsMemory_openForRead_other h.1 hc, (read_write_other m v hc).trans h.2⟩

section
variable (s : State) (b0 b1 b2 : Byte)

theorem placeAtPc_mem : (s.placeAtPc [b0, b1, b2]).mem =
    ((s.mem.write s.pc b0).write (s.pc + 1) b1).write (s.pc + 1 + 1) b2 := by
  simp [State.placeAtPc]

theorem placeAtPc_bus : (s.placeAtPc [b0, b1, b2]).bus =
    ((s.bus.openForRead s.pc).openForRead (s.pc + 1)).openForRead (s.pc + 1 + 1) := by
  simp [State.placeAtPc]

theorem placeAtPc_run : (s.placeAtPc [b0, b1, b2]).run = .running := by
  simp [State.placeAtPc]

theorem placeAtPc_pc : (s.placeAtPc [b0, b1, b2]).pc = s.pc := by
  simp [State.placeAtPc]

theorem placeAtPc_a : (s.placeAtPc [b0, b1, b2]).a = s.a := by
  simp [State.placeAtPc]

theorem placeAtPc_p : (s.placeAtPc [b0, b1, b2]).p = s.p := by
  simp [State.placeAtPc]

/-- Three bytes placed at PC are held from there on, since their addresses are apart. -/
theorem placeAtPc_holdsFrom : HoldsFrom (s.placeAtPc [b0, b1, b2]).mem (s.placeAtPc [b0, b1, b2]).bus
    (s.placeAtPc [b0, b1, b2]).pc [b0, b1, b2] := by
  have h01 : s.pc ≠ s.pc + 1 := by bv_omega
  have h02 : s.pc ≠ s.pc + 1 + 1 := by bv_omega
  have h12 : s.pc + 1 ≠ s.pc + 1 + 1 := by bv_omega
  rw [placeAtPc_mem, placeAtPc_bus, placeAtPc_pc]
  exact ⟨((holds_placed _ _ _ b0).placed_other h01 b1).placed_other h02 b2,
    (holds_placed _ _ _ b1).placed_other h12 b2, holds_placed _ _ _ b2, trivial⟩

/-- Three bytes placed at PC begin with an instruction, and the next step executes it. -/
theorem step_placeAtPc : ∃ i rest, decode [b0, b1, b2] = .ok (i, rest) ∧
    step (s.placeAtPc [b0, b1, b2]) = exec i ((s.placeAtPc [b0, b1, b2]).afterFetch (lengthOf i)) := by
  obtain ⟨i, rest, hd, -, hb, hlen⟩ := decode_three b0 b1 b2
  have hh := placeAtPc_holdsFrom s b0 b1 b2
  have hn : lengthOf i ≤ [b0, b1, b2].length := by
    rw [hb, List.length_append, hlen]
    exact Nat.le_add_right _ _
  have hstream : decode ((s.placeAtPc [b0, b1, b2]).stream 3) = .ok (i, rest) :=
    (congrArg decode (stream_of_holdsFrom hh)).trans hd
  exact ⟨i, rest, hd, step_of_fetched (placeAtPc_run s b0 b1 b2)
    (fetch_serviced hstream (servicesFetch_of_holdsFrom hh hn))⟩

end

theorem tableBytes_eq_three (nbits w : Nat) : ∃ b0 b1 b2, tableBytes nbits w = [b0, b1, b2] := ⟨_, _, _, rfl⟩

/-- Settles O60: the word's three bytes begin with an instruction, and they are what the step fetches. -/
theorem placedInstructionRuns : Obligations.PlacedInstructionRuns := by
  unfold Obligations.PlacedInstructionRuns
  intro s nbits w
  obtain ⟨b0, b1, b2, hb⟩ := tableBytes_eq_three nbits w
  obtain ⟨i, rest, hd, hstep⟩ := step_placeAtPc s b0 b1 b2
  have hi : decodeTableWord nbits w = some i := by rw [decodeTableWord, hb, hd]
  rw [State.withFetchWord, hb]
  exact ⟨i, hi, hstep, placeAtPc_run s b0 b1 b2, placeAtPc_pc s b0 b1 b2, placeAtPc_a s b0 b1 b2,
    placeAtPc_p s b0 b1 b2⟩

end Sys2Proof.Proofs
end

section
/-! SUPPORT. A reading instruction completes with its mnemonic's effect on the operand byte
(40_execution_and_addressing.md R117). -/

namespace Sys2Proof.Proofs

open Sys2Proof.Machine Sys2Proof.Laws Sys2Proof.Claims

/-- An instruction of class read gives what its mnemonic makes of the operand byte, once its reads are serviced. -/
theorem reads_of_class {i : Instr} {m : Mnemonic} {src : Src} {next : Byte → State → State}
    (hm : mnemonicOf i = some m) (hk : classOf i = .read src) (he : ∀ v t, effect m v t = next v t) :
    Reads i src next := by
  intro s h
  rw [exec_eq_perform hm, hk, perform, loadOperand_serviced h, bind_done, outcome_done, he]

/-- With an immediate operand there is no access that the bus could refuse. -/
theorem exec_of_immediate {i : Instr} {m : Mnemonic} {v : Byte} {s t : State} (hm : mnemonicOf i = some m)
    (hk : classOf i = .read (.imm v)) (ht : effect m v s = t) : exec i s = .next t :=
  ht ▸ reads_of_class hm hk (fun _ _ => rfl) s rfl

end Sys2Proof.Proofs
end

section
/-! SUPPORT. The adder (41_alu_arithmetic_logic_compare.md R130) as arithmetic on the unsigned and the signed readings,
and ADC and SBC through it (41 R131, R132). -/

namespace Sys2Proof.Proofs

open Sys2Proof.Machine Sys2Proof.Laws Sys2Proof.Claims

/-- Bit 7 is set in the upper half of the byte values. -/
theorem getLsbD_seven (v : Byte) : v.getLsbD 7 = decide (128 ≤ v.toNat) := BitVec.msb_eq_decide v

/-- The signed reading of a byte, by halves. -/
theorem toInt_cases (v : Byte) :
    (v.toNat < 128 ∧ v.toInt = v.toNat) ∨ (128 ≤ v.toNat ∧ v.toInt = v.toNat - 256) := by
  have h := BitVec.toInt_eq_toNat_cond v
  split at h <;> omega

theorem and_0x80_ne_zero (v : Byte) : (v &&& 0x80 != 0) = v.getLsbD 7 := by
  have h : v &&& 0x80 = if v.getLsbD 7 then 0x80 else 0 := BitVec.and_twoPow v 7
  rw [h]
  cases v.getLsbD 7 <;> rfl

section
variable (a m : Byte) (c : Bool)

theorem addWithCarry_r_toNat : (addWithCarry a m c).r.toNat = (a.toNat + m.toNat + c.toNat) % 256 :=
  BitVec.toNat_ofNat _ 8

theorem addWithCarry_cout : (addWithCarry a m c).cout = decide (a.toNat + m.toNat + c.toNat > 0xFF) := rfl

/-- The exact sum takes nine bits. -/
theorem sum_le : a.toNat + m.toNat + c.toNat ≤ 511 := by
  have hc := c.toNat_le
  omega

/-- The carry out is the ninth of those bits. -/
theorem addWithCarry_cout_testBit : (addWithCarry a m c).cout = (a.toNat + m.toNat + c.toNat).testBit 8 := by
  have h := sum_le a m c
  rw [addWithCarry_cout, Nat.testBit_eq_decide_div_mod_eq, decide_eq_decide]
  omega

/-- Overflow, by the signs: the summands agree and the result does not. -/
theorem addWithCarry_vout_iff_sign : (addWithCarry a m c).vout = true ↔
    a.getLsbD 7 = m.getLsbD 7 ∧ (addWithCarry a m c).r.getLsbD 7 ≠ a.getLsbD 7 := by
  have hv : (addWithCarry a m c).vout =
      ((a ^^^ (addWithCarry a m c).r) &&& (m ^^^ (addWithCarry a m c).r) &&& 0x80 != 0) := rfl
  have hbool : ∀ x y z : Bool, ((x ^^ z) && (y ^^ z)) = true ↔ x = y ∧ z ≠ x := by decide
  rw [hv, and_0x80_ne_zero, BitVec.getLsbD_and, BitVec.getLsbD_xor, BitVec.getLsbD_xor, hbool]

/-- Overflow, by value: the sum of the signed readings is not the reading of a byte. -/
theorem addWithCarry_vout_iff_range : (addWithCarry a m c).vout = true ↔
    a.toInt + m.toInt + c.toNat < -128 ∨ a.toInt + m.toInt + c.toNat > 127 := by
  have hr := addWithCarry_r_toNat a m c
  have ha := toInt_cases a
  have hm := toInt_cases m
  have hc := c.toNat_le
  rw [addWithCarry_vout_iff_sign]
  simp only [getLsbD_seven, decide_eq_decide, ne_eq]
  omega

end

/-- Settles O42: the unsigned sum gives byte and carry, and the two readings of the overflow agree. -/
theorem adderRule : Obligations.AdderRule := by
  unfold Obligations.AdderRule
  exact fun a m c => ⟨sum_le a m c, addWithCarry_r_toNat a m c, by rw [addWithCarry_cout, decide_eq_true_iff],
    addWithCarry_cout_testBit a m c, rfl, addWithCarry_vout_iff_sign a m c, addWithCarry_vout_iff_range a m c⟩

theorem getFlag_sumFlags_c (p : Byte) (q : Sum) : getFlag (sumFlags p q) .c = q.cout := by
  rw [sumFlags, getFlag_zn_other _ _ (by decide) (by decide), getFlag_putFlag, if_neg (by decide), getFlag_putFlag_same]

theorem getFlag_sumFlags_v (p : Byte) (q : Sum) : getFlag (sumFlags p q) .v = q.vout := by
  rw [sumFlags, getFlag_zn_other _ _ (by decide) (by decide), getFlag_putFlag_same]

/-- The unsigned reading of the complement SBC adds. -/
theorem toNat_complement (m : Byte) : (~~~m).toNat = 255 - m.toNat := BitVec.toNat_not

/-- The signed reading of the complement SBC adds. -/
theorem toInt_complement (m : Byte) : (~~~m).toInt = -m.toInt - 1 := by
  have hn := toNat_complement m
  have hc := toInt_cases (~~~m)
  have hm := toInt_cases m
  omega

/-- The complement, as R132 writes it. -/
theorem complement_eq_sub (m : Byte) : ~~~m = 0xFF - m := (BitVec.allOnes_sub_eq_not m).symm

/-- The borrow is what the carry lacks to 1. -/
theorem borrow_eq (c : Bool) : (if c then 0 else 1 : Int) = 1 - c.toNat := by cases c <;> rfl

/-- Settles O44: adding the complement and the carry subtracts operand and borrow, read unsigned (offset by 256) and
read signed. -/
theorem sbcArithmetic : Obligations.SbcArithmetic := by
  unfold Obligations.SbcArithmetic
  intro s m
  generalize hc : getFlag s.p .c = c
  have hexec : exec (.sbcImm m) s = .next (sbcEffect m s) := exec_of_immediate rfl rfl rfl
  have hq : addWithCarry s.a (~~~m) (s.flag .c) = addWithCarry s.a (~~~m) c := by rw [State.flag, hc]
  have hn := toNat_complement m
  have hcl := c.toNat_le
  refine ⟨_, hexec, ?_, ?_, ?_⟩
  · have hr := addWithCarry_r_toNat s.a (~~~m) c
    rw [sbcEffect, hq, setP_a, setA_a, borrow_eq]
    apply BitVec.eq_of_toNat_eq
    rw [hr, BitVec.toNat_ofInt]
    omega
  · rw [sbcEffect, hq, setP_p, getFlag_sumFlags_c, addWithCarry_cout, decide_eq_true_iff, borrow_eq]
    omega
  · rw [sbcEffect, hq, setP_p, getFlag_sumFlags_v, addWithCarry_vout_iff_range, toInt_complement, borrow_eq]
    omega

/-- Adding the complement of a byte with the complement of the carry takes back what was added. -/
theorem addWithCarry_complement_undoes (a b : Byte) (c : Bool) :
    (addWithCarry (addWithCarry a b c).r (~~~b) (!c)).r = a := by
  have hnot : (!c).toNat = 1 - c.toNat := by cases c <;> rfl
  have hb := toNat_complement b
  have hc := c.toNat_le
  apply BitVec.eq_of_toNat_eq
  rw [addWithCarry_r_toNat, addWithCarry_r_toNat, hnot, hb]
  omega

/-- Settles O45, by `addWithCarry_complement_undoes`. -/
theorem sbcUndoesAdc : Obligations.SbcUndoesAdc := by
  unfold Obligations.SbcUndoesAdc
  intro s t b h
  have hadc : exec (.adcImm b) s = .next (adcEffect b s) := exec_of_immediate rfl rfl rfl
  cases hadc.symm.trans h
  refine ⟨_, exec_of_immediate rfl rfl rfl, ?_⟩
  have hc : ((adcEffect b s).setFlag .c (!getFlag s.p .c)).flag .c = !getFlag s.p .c := getFlag_putFlag_same _ _ _
  rw [effect, sbcEffect, hc]
  exact addWithCarry_complement_undoes s.a b (getFlag s.p .c)

/-- Settles O21: what ADC's mnemonic makes of the operand, in each mode. -/
theorem adcCompletes : Obligations.AdcCompletes := by
  unfold Obligations.AdcCompletes
  and_intros <;> exact fun _ => reads_of_class rfl rfl fun _ _ => rfl

/-- SBC's effect with the complement as R132 writes it. -/
theorem sbcEffect_eq_sbcNext (m : Byte) (t : State) : sbcEffect m t = sbcNext m t := by
  rw [sbcEffect, complement_eq_sub]
  rfl

/-- Settles O22: what SBC's mnemonic makes of the operand, in each mode. -/
theorem sbcCompletes : Obligations.SbcCompletes := by
  unfold Obligations.SbcCompletes
  and_intros <;> exact fun _ => reads_of_class rfl rfl sbcEffect_eq_sbcNext

end Sys2Proof.Proofs
end

section
/-! SUPPORT. The logic instructions, the compares and BIT (41_alu_arithmetic_logic_compare.md R133 to R140). -/

namespace Sys2Proof.Proofs

open Sys2Proof.Machine Sys2Proof.Laws Sys2Proof.Claims

/-- Every flag after a compare. -/
theorem getFlag_compareFlags (p r m : Byte) (f : Flag) : getFlag (compareFlags p r m) f =
    if f = .n then (r - m).getLsbD 7 else if f = .z then r - m == 0
    else if f = .c then decide (m.toNat ≤ r.toNat) else getFlag p f := by
  rw [compareFlags, getFlag_zn, getFlag_putFlag, bit7]

theorem getFlag_compareFlags_c (p r m : Byte) :
    getFlag (compareFlags p r m) .c = decide (m.toNat ≤ r.toNat) := by
  simp [getFlag_compareFlags]

theorem getFlag_compareFlags_n (p r m : Byte) : getFlag (compareFlags p r m) .n = (r - m).getLsbD 7 := by
  simp [getFlag_compareFlags]

/-- Only equal bytes have a zero difference, wrapped or not. -/
theorem getFlag_compareFlags_z (p r m : Byte) : getFlag (compareFlags p r m) .z = decide (r = m) := by
  have h : getFlag (compareFlags p r m) .z = (r - m == 0) := by simp [getFlag_compareFlags]
  rw [h, beq_eq_decide, decide_eq_decide]
  exact sub_eq_zero

theorem getFlag_compareFlags_other (p r m : Byte) {f : Flag} (hc : f ≠ .c) (hz : f ≠ .z) (hn : f ≠ .n) :
    getFlag (compareFlags p r m) f = getFlag p f := by
  rw [getFlag_compareFlags, if_neg hn, if_neg hz, if_neg hc]

/-- The carry that comes in makes no difference. -/
theorem compareFlags_putFlag_c (p r m : Byte) (c : Bool) :
    compareFlags (putFlag p .c c) r m = compareFlags p r m := by
  apply flags_ext
  intro f
  rw [getFlag_compareFlags, getFlag_compareFlags, getFlag_putFlag]
  by_cases h : f = .c
  · rw [if_pos h, if_pos h]
  · rw [if_neg h, if_neg h, if_neg h]

/-- The wrapped difference is the exact one modulo 256. -/
theorem sub_eq_ofInt (r m : Byte) : r - m = BitVec.ofInt 8 ((r.toNat : Int) - m.toNat) := by
  apply BitVec.eq_of_toNat_eq
  rw [BitVec.toNat_sub, BitVec.toNat_ofInt]
  omega

/-- Settles O43, flag by flag. -/
theorem compareRule : Obligations.CompareRule := by
  unfold Obligations.CompareRule
  refine ⟨fun p r m => ⟨?_, ?_, ?_, ?_, ?_, fun f => getFlag_compareFlags_other p r m, compareFlags_putFlag_c p r m⟩,
    fun p => ?_,
    fun s m => ⟨exec_of_immediate rfl rfl rfl, exec_of_immediate rfl rfl rfl, exec_of_immediate rfl rfl rfl⟩⟩
  · rw [getFlag_compareFlags_c, decide_eq_true_iff]
  · rw [getFlag_compareFlags_z, decide_eq_true_iff]
  · rw [getFlag_compareFlags_n, sub_eq_ofInt]
  · rw [getFlag_compareFlags_c, getFlag_compareFlags_z, decide_eq_true_iff, decide_eq_false_iff_not]
    bv_omega
  · rw [getFlag_compareFlags_c, decide_eq_false_iff_not, not_le]
  · rw [getFlag_compareFlags_n]
    rfl

/-- Settles O23: what the three mnemonics make of the operand, in each mode. -/
theorem logicCompletes : Obligations.LogicCompletes := by
  unfold Obligations.LogicCompletes
  and_intros <;> exact fun _ => reads_of_class rfl rfl fun _ _ => rfl

/-- Settles O24: what the three mnemonics make of the operand, in each mode. -/
theorem comparesComplete : Obligations.ComparesComplete := by
  unfold Obligations.ComparesComplete
  and_intros <;> exact fun _ => reads_of_class rfl rfl fun _ _ => rfl

/-- Settles O25: what BIT makes of the operand, in both modes. -/
theorem bitCompletes : Obligations.BitCompletes := by
  unfold Obligations.BitCompletes
  and_intros <;> exact fun _ => reads_of_class rfl rfl fun _ _ => rfl

end Sys2Proof.Proofs
end

section
/-! SUPPORT. The shifts and rotates as arithmetic on the byte's value, and the read-modify-write, accumulator and index
instructions through their classes (42_shift_rotate_incdec.md R150 to R160). -/

namespace Sys2Proof.Proofs

open Sys2Proof.Machine Sys2Proof.Laws Sys2Proof.Claims

/-- A carry as the byte's bit 0. -/
theorem toNat_carry_low (c : Bool) : (if c then 0x01 else 0x00 : Byte).toNat = c.toNat := by cases c <;> rfl

/-- A carry as the byte's bit 7. -/
theorem toNat_carry_high (c : Bool) : (if c then 0x80 else 0x00 : Byte).toNat = 128 * c.toNat := by cases c <;> rfl

theorem toNat_shiftLeft_one (v : Byte) : (v <<< 1).toNat = 2 * (v.toNat % 128) := by
  rw [BitVec.toNat_shiftLeft, Nat.shiftLeft_eq]
  omega

theorem toNat_shiftRight_one (v : Byte) : (v >>> 1).toNat = v.toNat / 2 := BitVec.toNat_ushiftRight v 1

/-- Bit 0 is free after the shift, so the carry that enters it is added. -/
theorem toNat_shiftLeft_or_carry (v : Byte) (c : Bool) :
    (v <<< 1 ||| if c then 0x01 else 0x00).toNat = 2 * (v.toNat % 128) + c.toNat := by
  rw [BitVec.toNat_or, toNat_shiftLeft_one, toNat_carry_low]
  exact (Nat.two_pow_add_eq_or_of_lt (i := 1) c.toNat_lt _).symm

/-- Bit 7 is free after the shift, so the carry that enters it is added. -/
theorem toNat_shiftRight_or_carry (v : Byte) (c : Bool) :
    (v >>> 1 ||| if c then 0x80 else 0x00).toNat = v.toNat / 2 + 128 * c.toNat := by
  have hv : v.toNat / 2 < 2 ^ 7 := by omega
  rw [BitVec.toNat_or, toNat_shiftRight_one, toNat_carry_high, Nat.or_comm, Nat.add_comm]
  exact (Nat.two_pow_add_eq_or_of_lt hv _).symm

section
variable (old p : Byte)

theorem shiftLeft_eq_aslValue : old <<< 1 = aslValue old p := by
  apply BitVec.eq_of_toNat_eq
  rw [toNat_shiftLeft_one, aslValue, BitVec.toNat_ofNat]
  omega

theorem shiftRight_eq_lsrValue : old >>> 1 = lsrValue old p := by
  apply BitVec.eq_of_toNat_eq
  rw [toNat_shiftRight_one, lsrValue, BitVec.toNat_ofNat]
  omega

theorem rotateLeft_eq_rolValue : (old <<< 1 ||| if getFlag p .c then 0x01 else 0x00) = rolValue old p := by
  have hc := (getFlag p .c).toNat_lt
  apply BitVec.eq_of_toNat_eq
  rw [toNat_shiftLeft_or_carry, rolValue, BitVec.toNat_ofNat]
  omega

theorem rotateRight_eq_rorValue : (old >>> 1 ||| if getFlag p .c then 0x80 else 0x00) = rorValue old p := by
  have hc := (getFlag p .c).toNat_lt
  apply BitVec.eq_of_toNat_eq
  rw [toNat_shiftRight_or_carry, rorValue, BitVec.toNat_ofNat]
  omega

theorem aslOp_eq : aslOp old p = ⟨aslValue old p, aslFlags old p⟩ := by
  rw [aslOp, shiftLeft_eq_aslValue old p, aslFlags]

theorem lsrOp_eq : lsrOp old p = ⟨lsrValue old p, lsrFlags old p⟩ := by
  rw [lsrOp, shiftRight_eq_lsrValue old p, lsrFlags]

theorem rolOp_eq : rolOp old p = ⟨rolValue old p, rolFlags old p⟩ := by
  rw [rolOp, rotateLeft_eq_rolValue, rolFlags]

theorem rorOp_eq : rorOp old p = ⟨rorValue old p, rorFlags old p⟩ := by
  rw [rorOp, rotateRight_eq_rorValue, rorFlags]

end

/-- An instruction of class read-modify-write completes with the byte and the flags its operation gives. -/
theorem modifies_of_class {i : Instr} {m : MemMode} {op : Byte → Byte → Altered} {new flags : Byte → Byte → Byte}
    (hi : exec i = modifyClass m op) (ho : ∀ old p, op old p = ⟨new old p, flags old p⟩) : Modifies i m new flags := by
  intro s
  have ha : m.altered op s = _ := ho _ _
  have hs := modifyClass_serviced (m := m) (op := op) (s := s)
  rwa [ha, ← hi] at hs

/-- An instruction of class accumulator gives A and P what its operation gives. -/
theorem exec_of_accumulator {i : Instr} {op : Byte → Byte → Altered} {new flags : Byte → Byte → Byte}
    (hi : exec i = accumulatorClass op) (ho : ∀ old p, op old p = ⟨new old p, flags old p⟩) (s : State) :
    exec i s = .next ((s.setA (new s.a s.p)).setP (flags s.a s.p)) := by
  rw [hi, accumulatorClass, ho]

/-- An instruction of class implied gives its mnemonic's effect. -/
theorem exec_of_implied {i : Instr} {m : Mnemonic} (hm : mnemonicOf i = some m) (hk : classOf i = .implied)
    (s : State) : exec i s = .next (effect m 0 s) := by
  rw [exec_eq_perform hm, hk, perform, outcome_done]

/-- Settles O27: the byte and the flags of each mnemonic's operation, in each mode. -/
theorem memoryShiftsComplete : Obligations.MemoryShiftsComplete := by
  unfold Obligations.MemoryShiftsComplete
  exact ⟨fun _ => modifies_of_class rfl aslOp_eq, fun _ => modifies_of_class rfl aslOp_eq,
    fun _ => modifies_of_class rfl aslOp_eq, fun _ => modifies_of_class rfl aslOp_eq,
    fun _ => modifies_of_class rfl lsrOp_eq, fun _ => modifies_of_class rfl lsrOp_eq,
    fun _ => modifies_of_class rfl lsrOp_eq, fun _ => modifies_of_class rfl lsrOp_eq,
    fun _ => modifies_of_class rfl rolOp_eq, fun _ => modifies_of_class rfl rolOp_eq,
    fun _ => modifies_of_class rfl rolOp_eq, fun _ => modifies_of_class rfl rolOp_eq,
    fun _ => modifies_of_class rfl rorOp_eq, fun _ => modifies_of_class rfl rorOp_eq,
    fun _ => modifies_of_class rfl rorOp_eq, fun _ => modifies_of_class rfl rorOp_eq⟩

/-- Settles O28: the byte and the flags of each mnemonic's operation, on A. -/
theorem accumulatorShiftsComplete : Obligations.AccumulatorShiftsComplete := by
  unfold Obligations.AccumulatorShiftsComplete
  exact fun s => ⟨exec_of_accumulator rfl aslOp_eq s, exec_of_accumulator rfl lsrOp_eq s,
    exec_of_accumulator rfl rolOp_eq s, exec_of_accumulator rfl rorOp_eq s⟩

/-- Settles O29: INC and DEC are their operations as the model writes them, in each mode. -/
theorem incDecMemoryComplete : Obligations.IncDecMemoryComplete := by
  unfold Obligations.IncDecMemoryComplete
  and_intros <;> exact fun _ => modifies_of_class rfl fun _ _ => rfl

/-- Settles O31: what each of the four mnemonics makes of its register. -/
theorem indexStepsComplete : Obligations.IndexStepsComplete := by
  unfold Obligations.IndexStepsComplete
  exact fun s => ⟨exec_of_implied (m := .inx) rfl rfl s, exec_of_implied (m := .iny) rfl rfl s,
    exec_of_implied (m := .dex) rfl rfl s, exec_of_implied (m := .dey) rfl rfl s⟩

/-- The successor of a byte, wrapped, as the number R157 writes. -/
theorem ofNat_toNat_succ (v : Byte) : BitVec.ofNat 8 (v.toNat + 1) = v + 1 := by
  rw [BitVec.ofNat_add, BitVec.ofNat_toNat, BitVec.setWidth_eq]
  rfl

/-- Settles O30: INX steps X and sets Z and N from it; at 0xFF the successor is 0x00. -/
theorem inxRule : Obligations.InxRule := by
  unfold Obligations.InxRule
  refine ⟨rfl, rfl, fun s => ?_⟩
  have hinx : exec .inx s = .next ((s.setX (s.x + 1)).setZN (s.x + 1)) :=
    exec_of_implied (m := .inx) rfl rfl s
  refine ⟨?_, fun f => getFlag_zn_other _ _, fun hx => ⟨_, hinx, ?_⟩⟩
  · rw [hinx, ofNat_toNat_succ]
    rfl
  · have h0 : s.x + 1 = 0x00 := by rw [hx]; rfl
    rw [setZN_x, setX_x, setZN_p, getFlag_zn_z, getFlag_zn_n, h0]
    exact ⟨rfl, rfl, rfl⟩

end Sys2Proof.Proofs
end

section
/-! SUPPORT. The flag instructions, through the class implied (43_flag_instructions.md R170 to R176). -/

namespace Sys2Proof.Proofs

open Sys2Proof.Machine Sys2Proof.Laws Sys2Proof.Claims

/-- Writing one flag leaves the other seven as they were (00 R8). -/
theorem getFlag_putFlag_other (p : Byte) {f g : Flag} (v : Bool) (h : g ≠ f) :
    getFlag (putFlag p f v) g = getFlag p g := by
  rw [getFlag_putFlag, if_neg h]

/-- An instruction of class implied whose mnemonic's effect is to set `f` to `v` writes that flag only. -/
theorem writesFlag_of_implied {i : Instr} {m : Mnemonic} {f : Flag} {v : Bool} (hm : mnemonicOf i = some m)
    (hk : classOf i = .implied) (he : ∀ s, effect m 0 s = s.setFlag f v) (s : State) : WritesFlag i s f v := by
  have hi : exec i s = .next (s.setFlag f v) := by rw [exec_of_implied hm hk, he]
  exact ⟨putFlag s.p f v, hi, getFlag_putFlag_same s.p f v, fun _ => getFlag_putFlag_other s.p v⟩

/-- Settles O32: each of the seven mnemonics' effect sets the one flag it names. -/
theorem flagInstructionsComplete : Obligations.FlagInstructionsComplete := by
  unfold Obligations.FlagInstructionsComplete
  intro s
  and_intros <;> exact writesFlag_of_implied rfl rfl (fun _ => rfl) s

end Sys2Proof.Proofs
end

section
/-! SUPPORT. The stack (44_stack_and_subroutine.md R180 to R191): its addresses, pushes and pulls one after another, and
what is pushed to plain memory pulled again. -/

namespace Sys2Proof.Proofs

open Sys2Proof.Machine Sys2Proof.Laws

theorem toNat_stackAddr (sp : Byte) : (stackAddr sp).toNat = 0x0100 + sp.toNat :=
  toNat_wordOf 0x01 sp

/-- The stack address as the rules write it (10 R14). -/
theorem stackAddr_eq_add (sp : Byte) : stackAddr sp = 0x0100 + zext16 sp := by
  apply BitVec.eq_of_toNat_eq
  rw [toNat_stackAddr, toNat_add_zext16, Nat.mod_eq_of_lt]
  · rfl
  · have h : (0x0100 : Word).toNat = 0x0100 := rfl
    have := sp.isLt
    omega

/-- SP two lower and one higher, as RTS finds the low byte after JSR. -/
theorem sub_two_add_one (sp : Byte) : sp - 2 + 1 = sp - 1 := by bv_omega

/-- SP after two pushes. -/
theorem sub_one_sub_one (sp : Byte) : sp - 1 - 1 = sp - 2 := by bv_omega

/-- The cell next to a stack cell is another one, at every SP. -/
theorem stackAddr_ne_stackAddr_sub_one (sp : Byte) : stackAddr sp ≠ stackAddr (sp - 1) := fun h => by
  have := stackAddr_injective h
  bv_omega

/-- Plain memory gives a read what memory holds. -/
theorem busByte_of_plainAt {s : State} {a : Word} (h : s.bus.plainAt a) : s.busByte a = s.mem.read a :=
  busByte_memory (h _ _ rfl)

/-- A store to plain memory reaches its cell. -/
theorem store_mem_read_of_plainAt {s : State} {a : Word} (h : s.bus.plainAt a) (v : Byte) :
    (s.store a v).mem.read a = v := by
  rw [store_mem, written_memory (h _ _ rfl), read_write_same]

/-- A push to plain memory leaves the byte in the cell SP designated and lowers SP (R180). -/
theorem push8_of_plainAt {s : State} (h : s.bus.plainAt (stackAddr s.sp)) (opAt : Word) (v : Byte) :
    push8 opAt v s = .done () ((s.store (stackAddr s.sp) v).setSp (s.sp - 1)) :=
  push8_serviced (services_of_plainAt h)

/-- A pull right after a push to plain memory gives the byte back and SP as it was. -/
theorem pull8_of_pushed {s : State} (h : s.bus.plainAt (stackAddr s.sp)) (opAt : Word) (v : Byte) :
    pull8 opAt ((s.store (stackAddr s.sp) v).setSp (s.sp - 1)) =
      .done v (((s.store (stackAddr s.sp) v).setSp s.sp).record .read (stackAddr s.sp) v) := by
  have hs : ((s.store (stackAddr s.sp) v).setSp (s.sp - 1)).services (.read (stackAddr (s.sp - 1 + 1))) = true := by
    rw [BitVec.sub_add_cancel]
    exact services_of_plainAt h
  rw [pull8_serviced hs]
  simp only [setSp_sp, BitVec.sub_add_cancel, setSp_busByte, store_busByte_of_plainAt h]
  rfl

/-- Settles O53, by `pull8_of_pushed`; the one cell the push writes is the one at SP. -/
theorem pushThenPull : Obligations.PushThenPull := by
  unfold Obligations.PushThenPull
  intro opAt opAt' v s h
  exact ⟨_, _, push8_of_plainAt h opAt v, pull8_of_pushed h opAt' v, by simp only [record_sp, setSp_sp],
    fun _ => written_read_other v⟩

/-- An instruction of class push is its push. -/
theorem exec_of_push {i : Instr} {m : Mnemonic} {v : State → Byte} {s t : State} (hm : mnemonicOf i = some m)
    (hk : classOf i = .push v) (h : ∀ opAt, push8 opAt (v s) s = .done () t) : exec i s = .next t := by
  rw [exec_eq_perform hm, hk, perform, h, outcome_done]

/-- An instruction of class pull is its pull and its mnemonic's effect on the byte pulled. -/
theorem exec_of_pull {i : Instr} {m : Mnemonic} {v : Byte} {s t : State} (hm : mnemonicOf i = some m)
    (hk : classOf i = .pull) (h : ∀ opAt, pull8 opAt s = .done v t) : exec i s = .next (effect m v t) := by
  rw [exec_eq_perform hm, hk, perform, h, bind_done, outcome_done]

/-- JSR with both writes serviced (R188). -/
theorem exec_jsr_serviced {w : Word} {s : State} (h : s.servicesAll [.write (stackAddr s.sp) (hi8 (s.pc - 1)),
      .write (stackAddr (s.sp - 1)) (lo8 (s.pc - 1))] = true) :
    exec (.jsr w) s = .next ((((s.store (stackAddr s.sp) (hi8 (s.pc - 1))).store (stackAddr (s.sp - 1))
      (lo8 (s.pc - 1))).setSp (s.sp - 2)).setPc w) := by
  simp only [servicesAll_cons, servicesAll_nil, Bool.and_true, Bool.and_eq_true] at h
  obtain ⟨hhi, hlo⟩ := h
  have push_lo := push8_serviced (opAt := s.opAt 3)
    (s := (s.store (stackAddr s.sp) (hi8 (s.pc - 1))).setSp (s.sp - 1)) hlo
  have hx : exec (.jsr w) s = (perform (s.opAt 3) (effect .jsr) (.call w) s).outcome := exec_eq_perform rfl s
  rw [hx, perform, push8_serviced hhi, bind_done, push_lo, bind_done, outcome_done, setSp_sp, sub_one_sub_one]
  rfl

/-- The next pull, its read serviced, as a noted read and SP moved up (R181). -/
theorem pull8_to {opAt : Word} {s : State} {sp : Byte} (hsp : s.sp + 1 = sp)
    (h : s.services (.read (stackAddr sp)) = true) :
    pull8 opAt s = .done (s.busByte (stackAddr sp)) ((s.recordReads [stackAddr sp]).setSp sp) := by
  subst hsp
  exact pull8_serviced h

/-- RTS with both reads serviced (R189). -/
theorem exec_rts_serviced {s : State} (h : s.servicesReads [stackAddr (s.sp + 1), stackAddr (s.sp + 2)] = true) :
    exec .rts s = .next (((s.recordReads [stackAddr (s.sp + 1), stackAddr (s.sp + 2)]).setSp (s.sp + 2)).setPc
      (wordOf ((s.recordReads [stackAddr (s.sp + 1)]).busByte (stackAddr (s.sp + 2)))
        (s.busByte (stackAddr (s.sp + 1))) + 1)) := by
  simp only [servicesReads_cons, servicesReads_nil, Bool.and_true, Bool.and_eq_true] at h
  obtain ⟨hlo, hhi⟩ := h
  have hx : exec .rts s = (perform (s.opAt 1) (effect .rts) .ret s).outcome := exec_eq_perform rfl s
  rw [hx, perform, pull8_to rfl hlo, bind_done, pull8_to (sp := s.sp + 2), bind_done, outcome_done]
  · rfl
  · exact BitVec.add_assoc s.sp 1 1
  · exact hhi

/-- RTI with its three reads serviced (R190). -/
theorem exec_rti_serviced {s : State}
    (h : s.servicesReads [stackAddr (s.sp + 1), stackAddr (s.sp + 2), stackAddr (s.sp + 3)] = true) :
    exec .rti s = .next ((((s.recordReads [stackAddr (s.sp + 1), stackAddr (s.sp + 2),
      stackAddr (s.sp + 3)]).setSp (s.sp + 3)).setP (s.busByte (stackAddr (s.sp + 1)))).setPc
      (wordOf ((s.recordReads [stackAddr (s.sp + 1), stackAddr (s.sp + 2)]).busByte (stackAddr (s.sp + 3)))
        ((s.recordReads [stackAddr (s.sp + 1)]).busByte (stackAddr (s.sp + 2))))) := by
  simp only [servicesReads_cons, servicesReads_nil, Bool.and_true, Bool.and_eq_true] at h
  obtain ⟨hp, hlo, hhi⟩ := h
  have hx : exec .rti s = (perform (s.opAt 1) (effect .rti) .rti s).outcome := exec_eq_perform rfl s
  rw [hx, perform, pull8_to rfl hp, bind_done, pull8_to (sp := s.sp + 2), bind_done, pull8_to (sp := s.sp + 3),
    bind_done, outcome_done]
  · rfl
  · exact BitVec.add_assoc s.sp 2 1
  · exact hhi
  · exact BitVec.add_assoc s.sp 1 1
  · exact hlo

/-- Requests for plain memory are all serviced. -/
theorem servicesAll_of_plainAt {s : State} {l : List BusRequest} (h : ∀ q ∈ l, s.bus.plainAt q.addr) :
    s.servicesAll l = true := by
  induction l generalizing s with
  | nil => rfl
  | cons q l ih =>
    obtain ⟨hq, hl⟩ := List.forall_mem_cons.mp h
    have hb : (s.serviced q).bus = s.bus := servicedAll_bus s [q]
    rw [servicesAll_cons, services_of_plainAt hq, Bool.true_and]
    exact ih (hb ▸ hl)

/-- JSR with the two cells for the return address plain memory: they hold its last byte's address. -/
theorem exec_jsr_of_plainAt {s : State} (hhi : s.bus.plainAt (stackAddr s.sp))
    (hlo : s.bus.plainAt (stackAddr (s.sp - 1))) (w : Word) :
    ∃ t, exec (.jsr w) s = .next t ∧ t.bus = s.bus ∧ t.sp = s.sp - 2 ∧
      t.mem.read (stackAddr s.sp) = hi8 (s.pc - 1) ∧ t.mem.read (stackAddr (s.sp - 1)) = lo8 (s.pc - 1) := by
  refine ⟨_, exec_jsr_serviced (servicesAll_of_plainAt ?_), by simp only [setPc_bus, setSp_bus, store_bus],
    by simp only [setPc_sp, setSp_sp], ?_, ?_⟩
  · exact List.forall_mem_cons.mpr ⟨hhi, List.forall_mem_singleton.mpr hlo⟩
  · rw [setPc_mem, setSp_mem, store_mem, written_read_other _ (stackAddr_ne_stackAddr_sub_one s.sp),
      store_mem_read_of_plainAt hhi]
  · rw [setPc_mem, setSp_mem, store_mem_read_of_plainAt]
    exact hlo

/-- RTS with the two cells it pulls from plain memory: PC is one past the word they hold. -/
theorem exec_rts_of_plainAt {s : State} {lo hi : Byte} (hsp1 : s.sp + 1 = lo) (hsp2 : s.sp + 2 = hi)
    (hlo : s.bus.plainAt (stackAddr lo)) (hhi : s.bus.plainAt (stackAddr hi)) :
    ∃ u, exec .rts s = .next u ∧ u.pc = wordOf (s.mem.read (stackAddr hi)) (s.mem.read (stackAddr lo)) + 1 ∧
      u.sp = hi := by
  subst hsp1 hsp2
  have hhi' : (s.recordReads [stackAddr (s.sp + 1)]).bus.plainAt (stackAddr (s.sp + 2)) := hhi
  refine ⟨_, exec_rts_serviced (servicesAll_of_plainAt ?_), ?_, rfl⟩
  · exact List.forall_mem_cons.mpr ⟨hlo, List.forall_mem_singleton.mpr hhi⟩
  · rw [setPc_pc, busByte_of_plainAt hlo, busByte_of_plainAt hhi', recordReads_mem]

/-- Settles O54: RTS pulls the two bytes JSR pushed, each from its own cell, and steps past the address they make. -/
theorem jsrThenRtsReturns : Obligations.JsrThenRtsReturns := by
  unfold Obligations.JsrThenRtsReturns
  intro w pc' s hhi hlo
  obtain ⟨t, ht, hbus, hsp, read_hi, read_lo⟩ := exec_jsr_of_plainAt hhi hlo w
  have hsp1 : t.sp + 1 = s.sp - 1 := by rw [hsp, sub_two_add_one]
  have hsp2 : t.sp + 2 = s.sp := by rw [hsp, BitVec.sub_add_cancel]
  obtain ⟨u, hu, hpc, husp⟩ := exec_rts_of_plainAt (s := t.setPc pc') hsp1 hsp2 (hbus ▸ hlo) (hbus ▸ hhi)
  refine ⟨t, u, ht, hu, ?_, husp⟩
  rw [hpc, setPc_mem, read_hi, read_lo, wordOf_hi8_lo8, BitVec.sub_add_cancel]

/-- Settles O55: PLP pulls the byte PHP pushed, P with bits 4 and 5 set (`pull8_of_pushed`). -/
theorem phpThenPlpSetsBits : Obligations.PhpThenPlpSetsBits := by
  unfold Obligations.PhpThenPlpSetsBits
  intro s h
  exact ⟨_, _, exec_of_push (m := .php) rfl rfl fun opAt => push8_of_plainAt h opAt _,
    exec_of_pull (m := .plp) rfl rfl fun opAt => pull8_of_pushed h opAt _, setP_p _ _,
    by simp only [effect, setP_sp, record_sp, setSp_sp]⟩

/-- Settles O34, by the one push each is (`push8_serviced`). -/
theorem pushInstructionsComplete : Obligations.PushInstructionsComplete := by
  unfold Obligations.PushInstructionsComplete
  simp only [← stackAddr_eq_add]
  exact fun s => ⟨fun h => exec_of_push (m := .pha) rfl rfl fun _ => push8_serviced h,
    fun h => exec_of_push (m := .php) rfl rfl fun _ => push8_serviced h⟩

/-- Settles O35, by the one pull each makes and its mnemonic's effect. -/
theorem pullInstructionsComplete : Obligations.PullInstructionsComplete := by
  unfold Obligations.PullInstructionsComplete
  simp only [← stackAddr_eq_add]
  exact fun s h => ⟨exec_of_pull (m := .pla) rfl rfl fun _ => pull8_serviced h,
    exec_of_pull (m := .plp) rfl rfl fun _ => pull8_serviced h⟩

/-- Settles O36, by the two pushes (`exec_jsr_serviced`). -/
theorem jsrCompletes : Obligations.JsrCompletes := by
  unfold Obligations.JsrCompletes
  simp only [← stackAddr_eq_add]
  exact fun _ _ => exec_jsr_serviced

/-- Settles O37, by the pulls of each (`exec_rts_serviced`, `exec_rti_serviced`). -/
theorem returnsComplete : Obligations.ReturnsComplete := by
  unfold Obligations.ReturnsComplete
  simp only [← stackAddr_eq_add]
  exact fun s => ⟨exec_rts_serviced, exec_rti_serviced⟩

/-- A push to plain memory with SP's value and the cell's address written out, as in R180's worked examples. -/
theorem push8_of_sp_eq {s : State} {sp : Byte} {a : Word} (hsp : s.sp = sp) (ha : stackAddr sp = a)
    (h : s.bus.plainAt a) (opAt : Word) (v : Byte) :
    ∃ t, push8 opAt v s = .done () t ∧ t.mem.read a = v ∧ t.sp = sp - 1 := by
  subst hsp ha
  exact ⟨_, push8_of_plainAt h opAt v, store_mem_read_of_plainAt h v, rfl⟩

/-- Settles O50: the push serviced, the push refused, and `push8_of_sp_eq` at SP 0xFF and at SP 0x00. -/
theorem pushRule : Obligations.PushRule := by
  unfold Obligations.PushRule
  simp only [← stackAddr_eq_add]
  refine ⟨fun opAt v s => ⟨fun h => ?_, push8_refused⟩, fun opAt s hsp h => push8_of_sp_eq hsp rfl h opAt 0x42,
    fun opAt s hsp h => push8_of_sp_eq hsp rfl h opAt 0x42⟩
  rw [push8_serviced h, sub_eq_ofInt]
  rfl

/-- Settles O51: the pull serviced and the pull refused. -/
theorem pullRule : Obligations.PullRule := by
  unfold Obligations.PullRule
  simp only [← stackAddr_eq_add]
  exact fun _ _ => ⟨pull8_serviced, pull8_refused⟩

/-- The stack instructions access stack cells, in the order of their rows (40 R118). -/
theorem accesses_addr_eq_map_stackAddr {i : Instr} (s : State)
    (hi : mnemonicOf i ∈ [some .pha, some .php, some .pla, some .plp, some .jsr, some .rts, some .rti]) :
    ∃ l : List Byte, (accesses i s).map BusRequest.addr = l.map stackAddr := by
  cases i with
  | pha | php => exact ⟨[s.sp], rfl⟩
  | pla | plp => exact ⟨[s.sp + 1], rfl⟩
  | jsr => exact ⟨[s.sp, s.sp - 1], rfl⟩
  | rts => exact ⟨[s.sp + 1, s.sp + 2], rfl⟩
  | rti => exact ⟨[s.sp + 1, s.sp + 2, s.sp + 3], rfl⟩
  | _ => exact absurd hi (of_decide_eq_false rfl)

/-- Settles O52: every access is of a stack cell, whose address `toNat_stackAddr` gives. -/
theorem stackStaysInPageOne : Obligations.StackStaysInPageOne := by
  unfold Obligations.StackStaysInPageOne
  refine ⟨toNat_stackAddr, fun i s q hi hq => ?_⟩
  obtain ⟨l, hl⟩ := accesses_addr_eq_map_stackAddr s hi
  obtain ⟨sp, -, hsp⟩ := List.mem_map.mp (hl ▸ List.mem_map_of_mem hq)
  have := sp.isLt
  rw [← hsp, toNat_stackAddr]
  omega

end Sys2Proof.Proofs
end

section
/-! SUPPORT. The loads, the stores and the transfers, through their classes (45_load_store_transfer.md R200 to R209). -/

namespace Sys2Proof.Proofs

open Sys2Proof.Machine Sys2Proof.Laws Sys2Proof.Claims

/-- An instruction of class write completes with the register's byte stored at the effective address. -/
theorem stores_of_class {i : Instr} {m : MemMode} {reg : State → Byte} (hi : ∀ s, exec i s = writeClass m (reg s) s) :
    Stores i m reg :=
  fun s hp hw => (hi s).trans (writeClass_serviced hp hw)

/-- Settles O20: what the three mnemonics make of the operand, in each mode. -/
theorem loadsComplete : Obligations.LoadsComplete := by
  unfold Obligations.LoadsComplete
  and_intros <;> exact fun _ => reads_of_class rfl rfl fun _ _ => rfl

/-- Settles O26: the one write of the register, in each mode. -/
theorem storesComplete : Obligations.StoresComplete := by
  unfold Obligations.StoresComplete
  and_intros <;> exact fun _ => stores_of_class fun _ => rfl

/-- Settles O33: what each of the six mnemonics makes of its two registers. -/
theorem transfersComplete : Obligations.TransfersComplete := by
  unfold Obligations.TransfersComplete
  exact fun s => ⟨exec_of_implied (m := .tax) rfl rfl s, exec_of_implied (m := .tay) rfl rfl s,
    exec_of_implied (m := .txa) rfl rfl s, exec_of_implied (m := .tya) rfl rfl s,
    exec_of_implied (m := .tsx) rfl rfl s, exec_of_implied (m := .txs) rfl rfl s⟩

end Sys2Proof.Proofs
end

section
/-! SUPPORT. The jumps, the branches, NOP, HLT and a byte with no entry, through their classes
(46_control_flow.md R220 to R231, 60_exceptions.md R241). -/

namespace Sys2Proof.Proofs

open Sys2Proof.Machine Sys2Proof.Laws

/-- An instruction of class jump moves PC to the effective address, once its pointer reads are serviced. -/
theorem exec_of_jump {i : Instr} {m : Mnemonic} {mo : MemMode} {s : State} (hm : mnemonicOf i = some m)
    (hk : classOf i = .jump mo) (h : s.servicesReads (mo.pointerReads s) = true) :
    exec i s = .next ((s.recordReads (mo.pointerReads s)).setPc (mo.ea s)) := by
  rw [exec_eq_perform hm, hk, perform, resolve_serviced h, bind_done, outcome_done]

/-- Settles O38: JMP absolute has no pointer to read, JMP indirect the two bytes inside the pointer's page. -/
theorem jumpsComplete : Obligations.JumpsComplete := by
  unfold Obligations.JumpsComplete
  exact fun w s => ⟨exec_of_jump (m := .jmp) (mo := .abs w) rfl rfl rfl,
    exec_of_jump (m := .jmp) (mo := .ind w) rfl rfl⟩

/-- Adding a sign-extended offset is adding its two's-complement value, modulo 65536 (40 R116). -/
theorem add_sext16_eq_ofInt (w : Word) (off : Byte) : w + sext16 off = BitVec.ofInt 16 (w.toNat + off.toInt) := by
  rw [BitVec.ofInt_add, BitVec.ofInt_natCast, BitVec.ofNat_toNat, BitVec.setWidth_eq]
  rfl

/-- An instruction of class branch, taken when flag `f` has the value `v`, moves PC by its offset in that case and
changes nothing otherwise. -/
theorem exec_of_branch {i : Instr} {m : Mnemonic} {off : Byte} {s : State} {cond v : Bool} {f : Flag}
    (hm : mnemonicOf i = some m) (hk : classOf i = .branch off) (he : effect m off s = branchTo cond off s)
    (hc : (cond = true) = (getFlag s.p f = v)) :
    exec i s = .next (if getFlag s.p f = v then s.setPc (BitVec.ofInt 16 (s.pc.toNat + off.toInt)) else s) := by
  rw [exec_eq_perform hm, hk, perform, outcome_done, he, branchTo, add_sext16_eq_ofInt]
  simp only [hc]

/-- Settles O39: each branch's condition is its flag or the flag's negation. -/
theorem branchesComplete : Obligations.BranchesComplete := by
  unfold Obligations.BranchesComplete
  exact fun off s => ⟨exec_of_branch (m := .bpl) rfl rfl rfl (Bool.not_eq_true' _),
    exec_of_branch (m := .bmi) rfl rfl rfl rfl, exec_of_branch (m := .bvc) rfl rfl rfl (Bool.not_eq_true' _),
    exec_of_branch (m := .bvs) rfl rfl rfl rfl, exec_of_branch (m := .bcc) rfl rfl rfl (Bool.not_eq_true' _),
    exec_of_branch (m := .bcs) rfl rfl rfl rfl, exec_of_branch (m := .bne) rfl rfl rfl (Bool.not_eq_true' _),
    exec_of_branch (m := .beq) rfl rfl rfl rfl⟩

/-- Settles O40: NOP is of class implied and its mnemonic has no effect; HLT and the byte with no entry set the run
state alone. -/
theorem nopHltIllegalComplete : Obligations.NopHltIllegalComplete := by
  unfold Obligations.NopHltIllegalComplete
  exact fun s => ⟨exec_of_implied (m := .nop) rfl rfl s, exec_hlt s, fun op => exec_illegal op s⟩

end Sys2Proof.Proofs
end

section
/-! SUPPORT. Faults (60_exceptions.md R240 to R249): the first refused access is the one on record, and the record names
the opcode of the instruction in progress. -/

namespace Sys2Proof.Proofs

open Sys2Proof.Machine Sys2Proof.Laws

/-- A list of requests has one first refused request. -/
theorem first_refused_unique {s : State} {pre post pre' post' : List BusRequest} {q q' : BusRequest}
    (hl : pre ++ q :: post = pre' ++ q' :: post') (hs : s.servicesAll pre = true)
    (hq : (s.servicedAll pre).services q = false) (hs' : s.servicesAll pre' = true)
    (hq' : (s.servicedAll pre').services q' = false) : pre = pre' ∧ q = q' := by
  induction pre generalizing s pre' with
  | nil =>
    cases pre' with
    | nil => exact ⟨rfl, (List.cons.inj hl).1⟩
    | cons c pre' =>
      obtain ⟨rfl, -⟩ := List.cons.inj hl
      exact absurd (Bool.and_eq_true_iff.mp hs').1 (Bool.eq_false_iff.mp hq)
  | cons b pre ih =>
    cases pre' with
    | nil =>
      obtain ⟨rfl, -⟩ := List.cons.inj hl
      exact absurd (Bool.and_eq_true_iff.mp hs).1 (Bool.eq_false_iff.mp hq')
    | cons c pre' =>
      obtain ⟨rfl, htail⟩ := List.cons.inj hl
      obtain ⟨rfl, rfl⟩ := ih htail (Bool.and_eq_true_iff.mp hs).2 hq (Bool.and_eq_true_iff.mp hs').2 hq'
      exact ⟨rfl, rfl⟩

/-- An operation whose accesses are serviced up to one that is refused is raised at that one, the rest not made. -/
theorem Makes.raised_of_refused {α : Type} {opAt : Word} {s : State} {pre post : List BusRequest} {q : BusRequest}
    {r : Res α} (h : Makes opAt s (pre ++ q :: post) r) (hs : s.servicesAll pre = true)
    (hq : (s.servicedAll pre).services q = false) :
    ∃ t, r = .raised t ∧ SameHost ((s.servicedAll pre).raise (.addressingFailure q.addr q.kind opAt)) t := by
  cases r with
  | done v t => exact absurd h.1 (by simp [servicesAll_append, hq])
  | raised t =>
    obtain ⟨pre', q', post', hl, hs', hq', ht⟩ := h
    obtain ⟨rfl, rfl⟩ := first_refused_unique hl hs hq hs' hq'
    exact ⟨t, rfl, ht⟩

/-- Settles O16: HLT and a byte with no entry make no access, and the others are raised at the first refused one. -/
theorem firstRefusedAccessFaults : Obligations.FirstRefusedAccessFaults := by
  unfold Obligations.FirstRefusedAccessFaults
  intro i s pre post q hl hs hq
  obtain ⟨op, rfl⟩ | rfl | ⟨r, hx, hmk⟩ := exec_cases i s
  · exact absurd hl.symm (List.append_ne_nil_of_right_ne_nil pre (List.cons_ne_nil q post))
  · exact absurd hl.symm (List.append_ne_nil_of_right_ne_nil pre (List.cons_ne_nil q post))
  · rw [hl] at hmk
    obtain ⟨t, rfl, ht⟩ := hmk.raised_of_refused hs hq
    exact ⟨t, hx, ht.run, ht.seen.trans (servicedAll_seen s pre)⟩

/-- PC past the fetched bytes, less their number, is the opcode's address (log entry 11). -/
theorem afterFetch_pc_sub (s : State) (n : Nat) : (s.afterFetch n).pc - BitVec.ofNat 16 n = s.pc := by
  obtain ⟨l, hl⟩ := afterFetch_eq s n
  rw [hl]
  exact BitVec.add_sub_cancel s.pc (BitVec.ofNat 16 n)

/-- What a step can end Faulted with: an addressing failure, or the decode failure of the byte at PC, only that byte
fetched. The opcode's address is PC as the step began in both (60 R241, R242). -/
theorem step_faulted_cases {s t : State} {r : FaultRecord} (hst : step s = .next t) (hr : t.run = .faulted r) :
    (∃ a k, r = .addressingFailure a k s.pc) ∨
    (r = .decodeFailure (s.busByte s.pc) s.pc ∧ isUndocumented (s.busByte s.pc) = true ∧
      t = s.afterByte.raise (.decodeFailure (s.busByte s.pc) s.pc)) := by
  have hs := running_of_step_next hst
  obtain ⟨i, rest, hd, hw, ⟨-, hf⟩ | ⟨n, -, -, -, hf⟩⟩ := fetch_cases s
  · rw [step_of_fetched hs hf] at hst
    rcases runStateChanges i _ t hst with h | ⟨-, h⟩ | ⟨op, rfl, h⟩ | ⟨_, q, _, -, -, -, h⟩
    · rw [afterFetch_run, hs, hr] at h
      cases h
    · rw [hr] at h
      cases h
    · have hop : s.busByte s.pc = op := opcode_of_decode_stream hd
      have hpc : (s.afterFetch 1).opAt 1 = s.pc := afterFetch_pc_sub s 1
      cases (exec_illegal op _).symm.trans hst
      subst hop
      refine .inr ⟨?_, hw, congrArg (fun a => s.afterByte.raise (.decodeFailure (s.busByte s.pc) a)) hpc⟩
      rw [← RunState.faulted.inj hr]
      exact congrArg _ hpc
    · rw [hr, afterFetch_pc_sub] at h
      exact .inl ⟨q.addr, q.kind, RunState.faulted.inj h⟩
  · rw [step_of_refused hs hf] at hst
    cases hst
    exact .inl ⟨_, _, (RunState.faulted.inj hr).symm⟩

/-- Settles O12, by `step_faulted_cases`. -/
theorem faultNamesItsInstruction : Obligations.FaultNamesItsInstruction := by
  unfold Obligations.FaultNamesItsInstruction
  intro s t r hst hr
  obtain ⟨a, k, rfl⟩ | ⟨rfl, hu, ht⟩ := step_faulted_cases hst hr
  · exact ⟨rfl, fun _ _ h => by cases h⟩
  · refine ⟨rfl, fun op at0 h => ?_⟩
    cases h
    exact ⟨rfl, hu, ht⟩

/-- Settles O14, by `exec_next`. -/
theorem execAlwaysNext : Obligations.ExecAlwaysNext := by
  unfold Obligations.ExecAlwaysNext
  exact exec_next

end Sys2Proof.Proofs
end

section
/-! SUPPORT. What reset and a launch hand to the core: the image over the fill, the two platforms, the state before the
first step (70_reset_and_hazards.md R272 to R274, 20_memory.md R49, R50). -/

namespace Sys2Proof.Proofs

open Sys2Proof.Machine Sys2Proof.Laws

/-- Loading an image touches no cell before or after it. -/
theorem cell_load_outside {l : List Byte} {base a : Nat} (h : a < base ∨ base + l.length ≤ a) (m : Memory) :
    Memory.cell (Memory.load base l m) a = Memory.cell m a := by
  induction l generalizing base m with
  | nil => rfl
  | cons b l ih =>
    rw [List.length_cons] at h
    have hne : a ≠ base := by omega
    calc Memory.cell (Memory.load (base + 1) l (Memory.put m base b)) a
        = Memory.cell (Memory.put m base b) a := ih (by omega) _
      _ = Memory.cell m a := cell_put_other m b hne

/-- Byte `i` of a loaded image is at `base + i` (20 R49): loading the rest of the image leaves it there. -/
theorem cell_load_inside {l : List Byte} {i : Nat} {b : Byte} (h : l[i]? = some b) (base : Nat) (m : Memory) :
    Memory.cell (Memory.load base l m) (base + i) = b := by
  induction l generalizing base i m with
  | nil => cases h
  | cons c l ih =>
    cases i with
    | zero =>
      cases h
      exact (cell_load_outside (.inl (Nat.lt_succ_self base)) _).trans (cell_put_same m base b)
    | succ i =>
      have hi := ih h (base + 1) (Memory.put m base c)
      rwa [Nat.add_right_comm] at hi

theorem cell_of_mem_map {l : List Nat} {a : Nat} (h : a ∈ l) (v : Byte) :
    Memory.cell (l.map fun k => (k, v)) a = v := by
  induction l with
  | nil => cases h
  | cons k l ih =>
    rw [List.map_cons, Memory.cell]
    split
    · rfl
    · next hne => exact ih (List.mem_of_ne_of_mem (Ne.symm hne) h)

/-- Every cell of a filled memory holds the fill (20 R50). -/
theorem read_filled (v : Byte) (a : Word) : (Memory.filled v).read a = v := by
  unfold Memory.filled
  split
  · next h => exact h.symm
  · exact cell_of_mem_map (List.mem_range.mpr a.isLt) v

/-- On ImageOnly memory serves the reads of the image's cells, and every other read is refused (20 R50). -/
theorem reply_imageOnly_read (base size : Nat) (seen : List BusAccess) (a : Word) :
    (Bus.imageOnly base size).reply seen (.read a) =
      if base ≤ a.toNat ∧ a.toNat < base + size then .memory else .refuse := by
  have hc (phase : Nat) : (BusCase.mk .read base size .memory none none none).applies phase (.read a) =
      decide (base ≤ a.toNat ∧ a.toNat < base + size) := by
    rw [Bool.decide_and]
    exact (Bool.and_true _).trans (Bool.and_true _)
  rw [Bus.reply, Bus.imageOnly, Bus.caseAt, List.find?_singleton, hc]
  by_cases h : base ≤ a.toNat ∧ a.toNat < base + size
  · rw [if_pos h, decide_eq_true h]
    rfl
  · rw [if_neg h, decide_eq_false h]
    rfl

/-- On ImageOnly every write is refused (20 R50). -/
theorem reply_imageOnly_write (base size : Nat) (seen : List BusAccess) (a : Word) (v : Byte) :
    (Bus.imageOnly base size).reply seen (.write a v) = .refuse := rfl

theorem fits_iff (l : LaunchParams) : l.fits = true ↔ l.imageBase.toNat + l.image.length ≤ 65536 := decide_eq_true_iff

/-- On every platform the memory at launch is the image over some memory in canonical form. -/
theorem launchMemory_eq_load (l : LaunchParams) :
    ∃ m : Memory, m.wf = true ∧ l.memory = Memory.load l.imageBase.toNat l.image m := by
  unfold LaunchParams.memory
  split
  · exact ⟨_, rfl, rfl⟩
  · exact ⟨_, wf_filled l.memInit, rfl⟩
  · exact ⟨_, wf_filled l.memInit, rfl⟩

theorem launchMemory_wf {l : LaunchParams} (h : l.fits = true) : l.memory.wf = true := by
  obtain ⟨m, hm, heq⟩ := launchMemory_eq_load l
  rw [heq]
  exact wf_load _ _ ((fits_iff l).mp h) hm

/-- The sum does not wrap, since the image fits. -/
theorem launchMemory_read_image {l : LaunchParams} (hf : l.fits = true) {i : Nat} {b : Byte}
    (h : l.image[i]? = some b) : l.memory.read (l.imageBase + BitVec.ofNat 16 i) = b := by
  obtain ⟨hi, -⟩ := List.getElem?_eq_some_iff.mp h
  have hend := (fits_iff l).mp hf
  have ha : (l.imageBase + BitVec.ofNat 16 i).toNat = l.imageBase.toNat + i := by
    rw [BitVec.toNat_add, BitVec.toNat_ofNat]
    omega
  obtain ⟨m, -, heq⟩ := launchMemory_eq_load l
  rw [heq, Memory.read, ha]
  exact cell_load_inside h _ m

theorem launchMemory_read_fill {l : LaunchParams} (hp : l.platform = .flatRam64K) {a : Word}
    (h : a.toNat < l.imageBase.toNat ∨ l.imageBase.toNat + l.image.length ≤ a.toNat) : l.memory.read a = l.memInit := by
  have heq : l.memory = Memory.load l.imageBase.toNat l.image (Memory.filled l.memInit) := by
    rw [LaunchParams.memory, hp]
  rw [heq]
  exact (cell_load_outside h _).trans (read_filled l.memInit a)

/-- What an answered launch says: the image fits, and the state is that of 70 R273. -/
theorem launch_eq_some_iff {l : LaunchParams} {s : State} : launch l = some s ↔
    l.fits = true ∧ l.presets.foldl State.preset ((State.create l.memory l.bus).resetTo l.startPc) = s := by
  rw [launch, Option.ite_none_right_eq_some, Option.some_inj]

theorem launch_eq_none_iff (l : LaunchParams) :
    launch l = none ↔ l.imageBase.toNat + l.image.length > 65536 := by
  rw [launch, gt_iff_lt, ← Nat.not_le, ← fits_iff]
  split <;> simp [*]

theorem preset_sameHost (s : State) (w : Preset) : SameHost s (s.preset w) := by
  cases w <;> exact ⟨rfl, rfl, rfl, rfl⟩

theorem foldl_preset_sameHost (ws : List Preset) (s : State) : SameHost s (ws.foldl State.preset s) := by
  induction ws generalizing s with
  | nil => exact .refl s
  | cons w ws ih => exact (preset_sameHost s w).trans (ih (s.preset w))

/-- After its creation a launch touches the registers only. -/
theorem launch_sameHost {l : LaunchParams} {s : State} (h : launch l = some s) :
    SameHost (State.create l.memory l.bus) s := by
  obtain ⟨-, rfl⟩ := launch_eq_some_iff.mp h
  have hreset : SameHost (State.create l.memory l.bus) ((State.create l.memory l.bus).resetTo l.startPc) :=
    ⟨rfl, rfl, rfl, rfl⟩
  exact hreset.trans (foldl_preset_sameHost l.presets _)

/-- A created state has seen no access and has no fault record. -/
theorem create_inv {m : Memory} (h : m.wf = true) (b : Bus) : (State.create m b).Inv where
  wf := h
  truthful _ hr := nomatch hr
  serviced := rfl

/-- Reset clears the fault record and touches nothing else the invariant is about. -/
theorem resetTo_inv {s : State} (hi : s.Inv) (start : Word) : (s.resetTo start).Inv where
  wf := hi.wf
  truthful _ hr := nomatch hr
  serviced := hi.serviced

theorem launch_inv {l : LaunchParams} {s : State} (h : launch l = some s) : s.Inv :=
  (launch_sameHost h).inv (create_inv (launchMemory_wf (launch_eq_some_iff.mp h).1) l.bus)

/-- Settles O10: creation meets the invariant, and neither reset nor presets break it. -/
theorem resetAndLaunchMeetInvariant : Obligations.ResetAndLaunchMeetInvariant := by
  unfold Obligations.ResetAndLaunchMeetInvariant
  exact ⟨create_inv wf_reset Bus.flatRam64K, fun _ _ => launch_inv, fun _ start hi => resetTo_inv hi start⟩

/-- Settles O58: a launched state has the launch's memory and bus, whose lemmas give the cells and the replies. -/
theorem launchPlacesImage : Obligations.LaunchPlacesImage := by
  unfold Obligations.LaunchPlacesImage
  refine fun l => ⟨launch_eq_none_iff l, fun s hs => ?_⟩
  obtain ⟨hf, hstate⟩ := launch_eq_some_iff.mp hs
  have hmem : s.mem = l.memory := (launch_sameHost hs).mem
  have hbus : s.bus = l.bus := (launch_sameHost hs).bus
  rw [hmem, hbus]
  refine ⟨fun i b => launchMemory_read_image hf, fun hp => ?_, fun hp seen a => ?_, fun hp => ?_⟩
  · rw [show l.bus = Bus.flatRam64K by rw [LaunchParams.bus, hp]]
    exact ⟨fun a => launchMemory_read_fill hp, reply_flatRam64K⟩
  · rw [show l.bus = Bus.imageOnly l.imageBase.toNat l.image.length by rw [LaunchParams.bus, hp]]
    exact ⟨reply_imageOnly_read _ _ seen a, reply_imageOnly_write _ _ seen a⟩
  · rw [hp, List.foldl_nil] at hstate
    subst hstate
    exact ⟨rfl, rfl, rfl, rfl, rfl, rfl, rfl⟩

end Sys2Proof.Proofs
end
